-- ==== Sys2Proof/Word.lean ====
section
/-! DEFINITION. The word types of the EZ-8256 and the plain types that the operands of its commands are made of.
No behaviour is written here. Sections of spec/: 00 (place codes, byte order), 05 (contexts), 12 (frames). -/

namespace Sys2Proof

/-- One octet. -/
abbrev Byte := BitVec 8
/-- A string of octets, in order of offset. -/
abbrev Octets := List Byte
/-- A register of the register space (R507). -/
abbrev W32 := BitVec 32
/-- A Nirm general register (R181), a hash (R45), a parameter of a command head (R115). -/
abbrev W64 := BitVec 64

/-- A sparse table: pairs of a key and a value, keys strictly rising, no entry equal to what an unlisted key reads as.
The operations are in Machine/Tab.lean. -/
abbrev Tab (α : Type) := List (Nat × α)

/-- Sparse octets by offset: scratch and response areas. Unlisted offsets read 0 (R162). -/
abbrev Mem := Tab Byte

/-- One handler context (R147): context c, 0 to 7, of global request engine e, 0 to 511 (R11); or the one context of the
management engine of die d, 0 the port die, 1 to 4 the store dies (R175). -/
inductive CtxId where
  | eng (e c : Nat)
  | mgmt (d : Nat)
deriving DecidableEq, Repr

/-- An IP address of either version (R73). -/
inductive Addr where
  | v4 (a : BitVec 32)
  | v6 (a : BitVec 128)
deriving DecidableEq, Repr

/-- What one decoding attempt of a flash read gave (R285): the read's highest correction share in 1/320 of a codeword,
or a failure to decode. The attempts are inputs: the first read, RETRY set 1, set 2, the soft-decision read. -/
inductive Attempt where
  | share (corrected : Nat)
  | failed
deriving DecidableEq, Repr

/-- How one target of a flash channel came out of a training (R272, R273): the bin reached, or a failure at bin 0. -/
inductive Trained where
  | bin (b : Nat)
  | failed
deriving DecidableEq, Repr

/-- One deskew and eye reading of a training (R273, R528): key 18t + 9r + s, whole-UI shift, fine taps, eye taps. -/
structure Deskew where
  key : Nat
  ui : Nat
  fine : Nat
  eye : Nat
deriving DecidableEq, Repr

/-- What READ ID, READ PARAMETER PAGE and READ UNIQUE ID of one flash die gave (R267 to R269, R275): its interface, planes and
cell modes meet Table 9-1 (`good`), its pages per plane block in QLC mode, blocks per plane and physical page octets. -/
structure DieId where
  id : Octets
  /-- Highest bin the parameter page states. -/
  maxBin : Nat
  good : Bool
  nq : Nat := 0
  bpp : Nat := 0
  ppSize : Nat := 0
  unique : Octets := []
  /-- Block numbers that carry the factory bad-block mark (R291). -/
  marked : List Nat := []
  /-- The EZ-64 format root stands at block 0 of the die (R360). -/
  ezRoot : Bool := false
deriving DecidableEq, Repr

/-- What a re-centring gave (R274): the target passed, or the results of the full training that a failure calls for, by target. -/
structure Recentred where
  passed : Bool
  results : List Trained := []
deriving DecidableEq, Repr

/-- What the quad-SPI NOR answers at BOOT (R499, R500): SFDP accepted, and the octets of the two image slots. -/
structure NorRead where
  sfdpOk : Bool
  slot0 : Octets
  slot1 : Octets
deriving DecidableEq, Repr

/-- An object that the EZ-64 media of a die hold (R360): the format of its records is not in spec/, so what reading them
gives is an input. `chunks` are the physical chunk address and the octets of each chunk, in chunk order. -/
structure EzObject where
  nsid : Nat
  key : Octets
  usermeta : W64
  version : Nat
  length : Nat
  kslot : Nat
  chunks : List (Nat × Octets)
deriving DecidableEq, Repr

/-- An EZ-64 superblock (R361): region, die position, and its block on each of the 16 channels. -/
structure EzSuper where
  region : Nat
  pos : Nat
  blocks : List (Option Nat)
deriving DecidableEq, Repr

/-- EZ-64 media of a die: its key table by slot, superblocks and objects (R360, R361). -/
structure EzMedia where
  keys : List (Nat × BitVec 512) := []
  supers : List EzSuper := []
  objects : List EzObject := []
deriving DecidableEq, Repr

/-- What a store die finds on its media when a mount reads it (R325, R343, R353, R359, R360). These are facts about what
the flash gives back, so they are inputs of the mount. -/
structure MountFind where
  /-- A key image whose CRC passes was found (R326). -/
  keyTable : Bool
  /-- An EPOCH or FORMAT anchor was found (R359). -/
  anchor : Bool
  /-- Map pieces that read in neither retained epoch (R351). -/
  mapPieceLost : Bool
  /-- A piece other than a map piece that reads in neither (R359). -/
  otherPieceLost : Bool
  /-- Pieces, by index of Table 11-6, that read in the older retained epoch only (R353). -/
  older : List Nat := []
  /-- The chunks of the newest usable image read (R359). -/
  imageReads : Bool
  /-- What the blocks in the EZ-64 media format hold, on a die that has such blocks (R360). -/
  ez : EzMedia := {}
  /-- Chunk slots that do not read, by physical chunk address (R356). -/
  unreadable : List Nat
  /-- Mount time in ms, for the event. -/
  ms : Nat
deriving DecidableEq, Repr

/-- Partitions of Table 16-2, in its order 1 to 7; the fifth row has two uses. -/
inductive HbmPart where
  | saggar (mirror : Bool) (ref : Nat)
  | cache (handle : Nat)
  | selCopy (row : Nat)
  | images
  | spill (engine ctx : Nat)
  /-- Response staging, which the table names beside the spill. -/
  | staging (commit : Nat)
  | records (commit : Nat)
  | mapDir
deriving DecidableEq, Repr

/-- How a program or verify of a chunk came out (R290, R317). -/
inductive Program where
  | share (corrected : Nat)
  | programFailed
  | verifyFailed
deriving DecidableEq, Repr

/-- What an ECC error of a cluster's shared resources hit (R180): a corrected error, the instruction cache of the cluster,
or its slots, stacks or micro-state. -/
inductive ClusterErr where
  | corrected
  | icache
  | state
deriving DecidableEq, Repr

/-- One access of a register batch: place code, offset, value for a write. -/
structure RegAcc where
  place : W32
  off : Nat
  value : W32
deriving DecidableEq, Repr

end Sys2Proof
end

