-- ==== Sys2Proof/Syntax.lean ====
section
/-! DEFINITION. The commands of the EZ-8256: one constructor per row of spec/opcode_table.json, with the operands that name
the unit the command happens on and what arrives from outside with it (a pin level, a frame, a physical outcome of the
media). Rows that act on the front of one of the device's own queues have no operand. A Nirm row carries only the context
that executes it: its fields are in the instruction word the context stands on. Rows with operands come first, each group
in the table's order. Docstrings: mnemonic, rule, summary. -/

namespace Sys2Proof

inductive Instr where
  /-- PORST_N (R497): A low level of at least 1 us on PORST_N resets the package at once, ends any dump and resets the root PLL and time base. -/
  | porstN (level : Bool)
  /-- WRST_N (R496): A low level on WRST_N starts a warm package reset, preceded by a reset dump on each store die whose home part is live. -/
  | wrstN (level : Bool)
  /-- PFAIL_N (R345): PFAIL_N sampled low on two consecutive CLKT cycles starts HOLDUP from every mode except RESET. -/
  | pfailN (level : Bool)
  /-- SUPPLY_TRIP (R539): A watched rail stays below 95 % of nominal for 200 ns, the monitor trips, sets TRIPPED and starts HOLDUP. -/
  | supplyTrip (die : Nat) (inRange : Bool)
  /-- DUMP_DONE (R346): The last image chunk, its parity and the IMAGE anchor of a store die's dump are programmed. -/
  | dumpDone (die : Nat)
  /-- RESET_DUMP_DONE (R496): A store die ends its reset dump and enters reset. -/
  | resetDumpDone (die : Nat)
  /-- BOOT_END (R501): The chosen signed image is verified, PHYCODE and profiles are loaded, the fabric record read and settings applied, and ELECT begins. -/
  | bootEnd (nor : NorRead)
  /-- LEASE_REQUEST (R461): A store die in service that holds no lease and has working cascade connections requests the mastership lease. -/
  | leaseRequest (die : Nat)
  /-- LANE_TRAINING_DONE (R549): A present MAC's lanes finish auto-negotiation and link training and its link comes up. -/
  | laneTrainingDone (mac : Nat) (trained : Bool)
  /-- CHANNEL_TRAINING_DONE (R272): A flash channel finishes the training steps at its target bin, or fails at bin 0. -/
  | channelTrainingDone (die ch : Nat) (ids : List DieId) (results : List Trained) (desk : List Deskew)
  /-- MOUNT_DIE_READY (R352): A store die finishes its clean, native or import mount, or a remount, and is ready. -/
  | mountDieReady (die : Nat) (find : MountFind)
  /-- TEMP_SAMPLE (R545): Each die samples its sensors every 1 ms, updating HOT, THERMAL and THERMTRIP_N. -/
  | tempSample (die : Nat) (tj : BitVec 12)
  /-- FRAME_RECEIVE (R369): A MAC receives a frame that passes or fails the receive checks and is written into a receive ring or dropped and counted. -/
  | frameReceive (mac : Nat) (octets : Octets) (phyErr : Bool)
  /-- PAUSE_REFRESH (R387): While a state stays XOFF, half of QUANTA elapses and the pause frame is repeated. -/
  | pauseRefresh (mac prio : Nat)
  /-- PAUSE_EXPIRY (R388): A received pause time runs out and the paused queue is released. -/
  | pauseExpiry (mac prio : Nat)
  /-- TX_FRAME_START (R383): The MAC starts sending the next frame by queue priority, or discards it while the link is down. -/
  | txFrameStart (mac : Nat)
  /-- LINK_UP (R366): A MAC's link comes up, flow-control states reset to XON and gratuitous ARPs are sent. -/
  | linkUp (mac : Nat)
  /-- LINK_DOWN (R366): A MAC's link is lost and its receive path takes no frames. -/
  | linkDown (mac : Nat)
  /-- LANE_FAULT (R365): A lane loses block lock or sees 16 uncorrectable FEC codewords in 1 ms and retrains, or is mapped out at its threshold. -/
  | laneFault (lane cause : Nat)
  /-- ACK_TIMER (R104): 20 us after a frame that needs an acknowledgement, the device sends an ACK. -/
  | ackTimer (conn : Nat)
  /-- RETX_TIMEOUT (R105): The retransmission timer of a connection expires and unacknowledged frames are declared lost and resent, or the connection is lost. -/
  | retxTimeout (conn : Nat)
  /-- IDLE_TIMEOUT (R108): A connection receives no authenticated DATA frame for IDLE seconds and is ended without a frame. -/
  | idleTimeout (conn : Nat)
  /-- OPENING_TIMEOUT (R88): A connection stays in OPENING for 1 s and is freed. -/
  | openingTimeout (conn : Nat)
  /-- QUIET_END (R89): A connection number has been QUIET for 10 ms and becomes FREE. -/
  | quietEnd (conn : Nat)
  /-- RESPONSE_SEND (R101): Response octets are sent in RSP items within the response and congestion windows, freeing the tag at the last octet. -/
  | responseSend (conn tag : Nat)
  /-- REQDATA_GRANT (R154): A command waiting at stage 4 receives its request-data area grant in commit order. -/
  | reqdataGrant (die : Nat)
  /-- SAGGAR_COPY_DONE (R32): Both saggar copies of a value are in place on the home and mirror store dies. -/
  | saggarCopyDone (commit : Nat)
  /-- NOHANDLER_COMMAND (R119): A command whose slot is empty takes no context and the port die ends it with NOHANDLER. -/
  | nohandlerCommand (commit : Nat)
  /-- GET (R122): The GET handler starts in a free context and returns a range of the named object's value. -/
  | get (commit ctx : Nat)
  /-- GETSEL (R123): The GETSEL handler starts, searches the stem's selection entries and serves the confirmed variant at RANK. -/
  | getsel (commit ctx : Nat)
  /-- PUT (R124): The PUT handler starts and creates or replaces the object, conditionally on EXPECT. -/
  | put (commit ctx : Nat)
  /-- DELETE (R125): The DELETE handler starts and removes the object, its selection entries and its pending puts. -/
  | delete (commit ctx : Nat)
  /-- SDISCARD (R126): The SDISCARD handler starts, removes the object and erases every earlier physical copy. -/
  | sdiscard (commit ctx : Nat)
  /-- MPBEGIN (R137): The MPBEGIN handler starts and creates a pending put named by its commit number. -/
  | mpbegin (commit ctx : Nat)
  /-- MPPART (R138): The MPPART handler starts and writes a part of a pending put. -/
  | mppart (commit ctx : Nat)
  /-- MPCOMMIT (R139): The MPCOMMIT handler starts and makes the pending put's parts the object's value. -/
  | mpcommit (commit ctx : Nat)
  /-- MPCANCEL (R140): The MPCANCEL handler starts and ends the pending put. -/
  | mpcancel (commit ctx : Nat)
  /-- SCAN (R129): The SCAN handler starts and lists live keys of the namespace by prefix and resume key. -/
  | scan (commit ctx : Nat)
  /-- FLUSH (R141): The FLUSH handler starts and completes when earlier writes are programmed and verified. -/
  | flush (commit ctx : Nat)
  /-- FENCE (R142): The FENCE handler starts after earlier commands have responded and holds later commands of its connection. -/
  | fence (commit ctx : Nat)
  /-- STAT (R131): The STAT handler starts and returns namespace or package counters. -/
  | stat (commit ctx : Nat)
  /-- SELPUT (R128): The SELPUT handler starts and writes a selection entry for a variant. -/
  | selput (commit ctx : Nat)
  /-- SELDEL (R128): The SELDEL handler starts and removes selection entries of a variant. -/
  | seldel (commit ctx : Nat)
  /-- OPERATOR_COMMAND (R161): A command of an opcode bound to an operator image starts its handler in a free context. -/
  | operatorCommand (commit ctx : Nat)
  /-- ADD (R193): ADD writes the wrapped sum of two registers. -/
  | add (x : CtxId)
  /-- SUB (R193): SUB writes the wrapped difference of two registers. -/
  | sub (x : CtxId)
  /-- AND (R193): AND writes the bitwise AND of two registers. -/
  | and (x : CtxId)
  /-- OR (R193): OR writes the bitwise OR of two registers. -/
  | or (x : CtxId)
  /-- XOR (R193): XOR writes the bitwise XOR of two registers. -/
  | xor (x : CtxId)
  /-- SHL (R193): SHL shifts a register left by a register amount. -/
  | shl (x : CtxId)
  /-- SHR (R193): SHR shifts a register right logically by a register amount. -/
  | shr (x : CtxId)
  /-- SAR (R193): SAR shifts a register right arithmetically by a register amount. -/
  | sar (x : CtxId)
  /-- MUL (R193): MUL writes the low 64 bits of a product. -/
  | mul (x : CtxId)
  /-- DIVU (R193): DIVU writes the unsigned quotient, all ones on division by zero. -/
  | divu (x : CtxId)
  /-- REMU (R193): REMU writes the unsigned remainder, the dividend on division by zero. -/
  | remu (x : CtxId)
  /-- EXT (R194): EXT extracts a bit field zero-extended. -/
  | ext (x : CtxId)
  /-- DEP (R194): DEP deposits a bit field into the destination register. -/
  | dep (x : CtxId)
  /-- ADDI (R194): ADDI adds a sign-extended immediate. -/
  | addi (x : CtxId)
  /-- ANDI (R194): ANDI ANDs a zero-extended immediate. -/
  | andi (x : CtxId)
  /-- ORI (R194): ORI ORs a zero-extended immediate. -/
  | ori (x : CtxId)
  /-- XORI (R194): XORI XORs a zero-extended immediate. -/
  | xori (x : CtxId)
  /-- SHLI (R194): SHLI shifts left by an immediate amount. -/
  | shli (x : CtxId)
  /-- SHRI (R194): SHRI shifts right logically by an immediate amount. -/
  | shri (x : CtxId)
  /-- SARI (R194): SARI shifts right arithmetically by an immediate amount. -/
  | sari (x : CtxId)
  /-- LI (R194): LI loads a sign-extended 20-bit immediate. -/
  | li (x : CtxId)
  /-- LSH (R194): LSH shifts the register left 20 bits and inserts an immediate. -/
  | lsh (x : CtxId)
  /-- SET (R195): SET writes 1 or 0 by the condition that func selects between two registers. -/
  | set (x : CtxId)
  /-- BEQ (R195): BEQ branches when two registers are equal. -/
  | beq (x : CtxId)
  /-- BNE (R195): BNE branches when two registers differ. -/
  | bne (x : CtxId)
  /-- BLTU (R195): BLTU branches on unsigned less-than. -/
  | bltu (x : CtxId)
  /-- BGEU (R195): BGEU branches on unsigned greater-or-equal. -/
  | bgeu (x : CtxId)
  /-- BLT (R195): BLT branches on signed less-than. -/
  | blt (x : CtxId)
  /-- BGE (R195): BGE branches on signed greater-or-equal. -/
  | bge (x : CtxId)
  /-- BZ (R195): BZ branches when a register is zero. -/
  | bz (x : CtxId)
  /-- BNZ (R195): BNZ branches when a register is not zero. -/
  | bnz (x : CtxId)
  /-- JMP (R195): JMP transfers by a relative offset. -/
  | jmp (x : CtxId)
  /-- JR (R195): JR transfers to the index held in a register. -/
  | jr (x : CtxId)
  /-- CALL (R195): CALL writes the link into a register and transfers by a relative offset. -/
  | call (x : CtxId)
  /-- LD8 (R196): LD8 loads one scratch octet. -/
  | ld8 (x : CtxId)
  /-- LD16 (R196): LD16 loads two aligned scratch octets little-endian. -/
  | ld16 (x : CtxId)
  /-- LD32 (R196): LD32 loads four aligned scratch octets little-endian. -/
  | ld32 (x : CtxId)
  /-- LD64 (R196): LD64 loads eight aligned scratch octets little-endian. -/
  | ld64 (x : CtxId)
  /-- ST8 (R196): ST8 stores one octet to scratch. -/
  | st8 (x : CtxId)
  /-- ST16 (R196): ST16 stores two aligned octets to scratch. -/
  | st16 (x : CtxId)
  /-- ST32 (R196): ST32 stores four aligned octets to scratch. -/
  | st32 (x : CtxId)
  /-- ST64 (R196): ST64 stores eight aligned octets to scratch. -/
  | st64 (x : CtxId)
  /-- WL8 (R196): WL8 loads one message octet from the window. -/
  | wl8 (x : CtxId)
  /-- WL16 (R196): WL16 loads two message octets big-endian. -/
  | wl16 (x : CtxId)
  /-- WL32 (R196): WL32 loads four message octets big-endian. -/
  | wl32 (x : CtxId)
  /-- WL64 (R196): WL64 loads eight message octets big-endian. -/
  | wl64 (x : CtxId)
  /-- RS8 (R196): RS8 stores one octet into the response area. -/
  | rs8 (x : CtxId)
  /-- RS16 (R196): RS16 stores two octets big-endian into the response area. -/
  | rs16 (x : CtxId)
  /-- RS32 (R196): RS32 stores four octets big-endian into the response area. -/
  | rs32 (x : CtxId)
  /-- RS64 (R196): RS64 stores eight octets big-endian into the response area. -/
  | rs64 (x : CtxId)
  /-- KEYCMP_ORDER (R197): KEYCMP with func ORDER compares two strings in key order. -/
  | keycmpOrder (x : CtxId)
  /-- KEYCMP_PREFIX (R197): KEYCMP with func PREFIX tests whether one string begins with another. -/
  | keycmpPrefix (x : CtxId)
  /-- KEYCPY (R198): KEYCPY copies a string into scratch or the response area. -/
  | keycpy (x : CtxId)
  /-- CRC (R199): CRC continues a CRC-32C over a string. -/
  | crc (x : CtxId)
  /-- HKEY (R200): HKEY computes the keyed SipHash over a namespace and a string. -/
  | hkey (x : CtxId)
  /-- DLOOK_HASH (R202): DLOOK in mode HASH asks the directory for candidate K of a key hash. -/
  | dlookHash (x : CtxId)
  /-- DLOOK_SUCC (R203): DLOOK in mode SUCC asks every store die for the next live key above a reference. -/
  | dlookSucc (x : CtxId)
  /-- DLOOK_PEND (R202): DLOOK in mode PEND asks for the pending-put record of a PUTID. -/
  | dlookPend (x : CtxId)
  /-- DINS (R205): DINS stages a new live entry or pending put after the ledger room test. -/
  | dins (x : CtxId)
  /-- DUPD (R206): DUPD stages an update of an entry's value and metadata. -/
  | dupd (x : CtxId)
  /-- DDEL (R207): DDEL stages removal of an entry, its selection entries and pending puts. -/
  | ddel (x : CtxId)
  /-- SEL (R208): SEL issues a selection search for a stem and capability vector. -/
  | sel (x : CtxId)
  /-- SELNEXT (R208): SELNEXT issues a search for the next match after a cursor. -/
  | selnext (x : CtxId)
  /-- SADD (R209): SADD stages a new selection entry or a priority change. -/
  | sadd (x : CtxId)
  /-- SDEL (R209): SDEL stages removal of selection entries of a handle. -/
  | sdel (x : CtxId)
  /-- MREAD_VALUE (R211): MREAD of KIND VALUE issues a read of value octets into a media slot. -/
  | mreadValue (x : CtxId)
  /-- MREAD_KEYREC (R211): MREAD of KIND KEYREC issues a read of the key record. -/
  | mreadKeyrec (x : CtxId)
  /-- MREAD_FILL (R211): MREAD of KIND FILL issues a placement of the value in the value cache. -/
  | mreadFill (x : CtxId)
  /-- MWRITE_STAGED (R212): MWRITE of KIND STAGED writes scratch octets into the invocation's staged value. -/
  | mwriteStaged (x : CtxId)
  /-- MWRITE_PART (R212): MWRITE of KIND PART makes the command's DATA parts of a pending put. -/
  | mwritePart (x : CtxId)
  /-- MDISC (R213): MDISC issues the end of a pending put. -/
  | mdisc (x : CtxId)
  /-- MSDISC (R214): MSDISC issues erasure of stale copies of a key hash. -/
  | msdisc (x : CtxId)
  /-- EMIT (R215): EMIT appends response-area octets to the staged output. -/
  | emit (x : CtxId)
  /-- EMITD (R216): EMITD appends a stream descriptor for a value range. -/
  | emitd (x : CtxId)
  /-- FENCE_CONN (R217): FENCE with func CONN waits for earlier commands of the connection to respond. -/
  | fenceConn (x : CtxId)
  /-- FENCE_PKG (R217): FENCE with func PKG waits for earlier commands of the package to respond. -/
  | fencePkg (x : CtxId)
  /-- FENCE_FLUSHNS (R217): FENCE with func FLUSHNS waits until R141 holds for the namespace. -/
  | fenceFlushns (x : CtxId)
  /-- FENCE_FLUSHALL (R217): FENCE with func FLUSHALL waits until R141 holds for every namespace. -/
  | fenceFlushall (x : CtxId)
  /-- LOCK (R218): LOCK requests a hardware lock and waits for its grant. -/
  | lock (x : CtxId)
  /-- UNLK (R218): UNLK releases a held hardware lock. -/
  | unlk (x : CtxId)
  /-- WAIT (R219): WAIT on a media slot waits for and returns the slot's result. -/
  | wait (x : CtxId)
  /-- WAIT_SAGGAR (R219): WAIT with func 8 waits for both saggar copies of the command's DATA. -/
  | waitSaggar (x : CtxId)
  /-- DONE (R220): DONE ends the handler, applying staged changes when STATUS is OK. -/
  | done (x : CtxId)
  /-- FAIL (R220): FAIL ends the handler with a status, discarding staged changes. -/
  | fail (x : CtxId)
  /-- YIELD (R165): YIELD moves the context to the end of the issue rotation. -/
  | yield (x : CtxId)
  /-- LOG (R221): LOG raises an event with code 0xF000 plus func. -/
  | log (x : CtxId)
  /-- MFS (R222): MFS reads a special register. -/
  | mfs (x : CtxId)
  /-- MTS (R222): MTS writes the USER bits of the status register. -/
  | mts (x : CtxId)
  /-- RDTIME (R223): RDTIME reads the time base in nanoseconds. -/
  | rdtime (x : CtxId)
  /-- RDCYC (R223): RDCYC reads CLKE cycles since the invocation started. -/
  | rdcyc (x : CtxId)
  /-- RDREG (R224): RDREG issues a privileged register read. -/
  | rdreg (x : CtxId)
  /-- WRREG (R224): WRREG issues a privileged register write. -/
  | wrreg (x : CtxId)
  /-- DIRECTORY_REPLY (R202): The directory answer of a DLOOK, DINS, DUPD or DDEL returns and the context becomes ready. -/
  | directoryReply (x : CtxId)
  /-- SUCC_ANSWER (R203): All earlier OWRITE commands of the namespace have ended and the merged SUCC answer returns. -/
  | succAnswer (x : CtxId)
  /-- LEDGER_ROOM_READY (R298): The ledger has applied every lower commit number and the DINS room test is decided. -/
  | ledgerRoomReady (x : CtxId)
  /-- ALLOC_RESERVE (R250): The allocator has applied every lower list and a creating SADD reserves its row. -/
  | allocReserve (x : CtxId)
  /-- MEDIA_RESULT (R210): A media operation completes and its result lands in its slot. -/
  | mediaResult (x : CtxId) (slot : Nat)
  /-- LOCK_GRANT (R441): A lock passes to the first waiter in arrival order, with ABANDONED when flagged. -/
  | lockGrant (place : Nat)
  /-- FENCE_RELEASE (R217): The condition of a waiting FENCE holds and the context resumes. -/
  | fenceRelease (x : CtxId)
  /-- LARGE_UNIT_GRANT (R169): A large-response unit frees and is granted to the earliest waiting handler. -/
  | largeUnitGrant (die : Nat)
  /-- ICACHE_FILL_DONE (R149): An instruction-cache fill completes and the waiting context resumes. -/
  | icacheFillDone (x : CtxId)
  /-- SPILL_ACCESS_DONE (R164): A scratch access to the spill part completes and the context resumes. -/
  | spillAccessDone (x : CtxId)
  /-- WINDOW_LOAD_DONE (R168): A window load at offset 512 or beyond returns from the request-data area. -/
  | windowLoadDone (x : CtxId)
  /-- REG_ACCESS_DONE (R224): An RDREG or WRREG access completes and sets REGSTAT. -/
  | regAccessDone (x : CtxId)
  /-- WAITLIMIT (R166): A timed wait lasts longer than WAITLIMIT and the handler ends with HFAULT code WAITLIMIT. -/
  | waitlimit (x : CtxId)
  /-- SEL_SEARCH_RESULT (R261): The cascade resolves a search, the winner is verified and the match record is written. -/
  | selSearchResult (x : CtxId) (upsets : List (Nat × BitVec 192))
  /-- LEDGER_APPLY (R297): The capacity ledger applies the net changes of the next commit number. -/
  | ledgerApply (die : Nat)
  /-- SEL_SCRUB (R258): The background scrub compares one row with its copy and repairs either. -/
  | selScrub (bank : Nat) (upsets : List (Nat × BitVec 192)) (copyUpsets : List (Nat × BitVec 192))
  /-- ENGINE_PARITY_ERROR (R180): A parity or ECC error resets a request engine and its invocations restart elsewhere. -/
  | engineParityError (engine : Nat)
  /-- CLUSTER_ECC_ERROR (R469): An ECC error in cluster shared resources is corrected, refetched or resets the cluster's engines. -/
  | clusterEccError (cluster : Nat) (kind : ClusterErr)
  /-- MGMT_ENGINE_ERROR (R469): A management engine parity or ECC error resets it and ends its request with ENDED. -/
  | mgmtEngineError (die : Nat)
  /-- HBM_UE (R471): An uncorrectable HBM error is handled by the partition it hits and counted toward its pseudo-channel. -/
  | hbmUe (die pch : Nat) (part : HbmPart)
  /-- STACK_LOSS (R29): An HBM stack is lost, the die goes offline and the next die writes the mirror copy as a PREDUMP image. -/
  | stackLoss (die cause : Nat)
  /-- DLINK_CRC_ERROR (R469): A die-link cycle fails CRC and is replayed, retraining the link or retiring it at threshold. -/
  | dlinkCrcError (link : Nat)
  /-- PORT_DIE_UE (R472): An uncorrectable error in a port-die singleton sets PKGFAULT and resets the package. -/
  | portDieUe (buffer : Option (Nat × Nat × Nat))
  /-- RECORDER_UE (R487): An uncorrectable error in the recorder makes it FAILED and writes the failsafe set. -/
  | recorderUe (cause index : Nat)
  /-- RECORDER_SCRUB (R486): The recorder scrubs all its positions once per second, correcting and counting errors. -/
  | recorderScrub (corrected : Nat) (failing : Option Nat)
  /-- LUN_TIMEOUT (R276): A LUN is still busy after TLIMIT, the device issues RESET and counts a channel failure. -/
  | lunTimeout (die flash : Nat)
  /-- FLASH_READ_DONE (R285): A flash read decodes with retries, rebuilds from its stripe or returns UNREADABLE. -/
  | flashReadDone (die pca : Nat) (attempts : List Attempt) (stripe : List (List Attempt))
  /-- CHUNK_VERIFIED (R290): A programmed chunk and its stripe parity verify and the map entry names it. -/
  | chunkVerified (die pca : Nat) (result : Program)
  /-- ERASE_DONE (R344): A block erase completes and the block returns to the free pool or is retired at ELIMIT. -/
  | eraseDone (die block : Nat) (ok : Bool)
  /-- DIE_STATE_TICK (R278): Every 1 us the scheduler re-evaluates each die's power state. -/
  | dieStateTick (die : Nat)
  /-- RECENTRE (R274): A target re-centres its read and write training every 100 ms or after 15 C of change. -/
  | recentre (die ch target : Nat) (result : Recentred) (desk : List Deskew)
  /-- VALUE_DRAIN (R293): A saggar extent is drained into SLC or QLC stripes of the HOST stream. -/
  | valueDrain (die ref : Nat) (toSlc : Bool)
  /-- JOURNAL_DRAIN (R339): A die drains effect records from LOGTAIL into a journal chunk. -/
  | journalDrain (die : Nat)
  /-- EPOCH_BEGIN (R341): A store die begins a checkpoint epoch and writes changed pieces, the root and the origin tail. -/
  | epochBegin (die : Nat)
  /-- EPOCH_COMPLETE (R341): Both copies of the EPOCH anchor record verify and the epoch is complete. -/
  | epochComplete (die : Nat)
  /-- RECLAIM_PASS (R310): Reclaim chooses the highest-scoring superblock and copies its valid chunks into the COPY stream. -/
  | reclaimPass (die region : Nat)
  /-- FOLD (R293): Reclaim folds the oldest SLC superblocks into QLC while the buffer exceeds its target. -/
  | fold (die region : Nat)
  /-- STATIC_LEVELLING (R311): The coldest closed superblock is relocated into the COLD stream while the spread exceeds SPREAD. -/
  | staticLevelling (die region : Nat)
  /-- PATROL_READ (R312): Patrol reads every valid slot of a superblock once per window. -/
  | patrolRead (die super : Nat) (reads : List (Nat × List Attempt))
  /-- REFRESH (R314): A superblock marked for refresh has its valid chunks relocated and is reclaimed. -/
  | refresh (die region : Nat)
  /-- REBUILD (R319): Every superblock holding a lost chunk has its valid chunks relocated at rank 1. -/
  | rebuild (die region : Nat)
  /-- MAP_COMPACTION (R303): The die moves map runs toward index 0 until a free run fits. -/
  | mapCompaction (die : Nat)
  /-- SERIAL_SWEEP (R337): Before put serials wrap, chunks with part handles of the next 2^24 serials are copied under their owners. -/
  | serialSweep (die : Nat)
  /-- ARB_REQUEST (R432): A request reaches an arbiter, is re-granted to a parked owner or revokes a low-class holder. -/
  | arbRequest (arb req unit : Nat)
  /-- ARB_DECISION (R428): An arbiter with no grant in progress grants the first eligible requester. -/
  | arbDecision (arb : Nat)
  /-- ARB_WINDOW_START (R430): A new quota window starts, counts clear and quota masks lift. -/
  | arbWindowStart (arb : Nat)
  /-- FN_STOP_COMPLETE (R455): A function's stop conditions hold and STATE becomes STOPPED, or STARTING when a restart is pending. -/
  | fnStopComplete (fn : Nat)
  /-- FN_RESTART_COMPLETE (R456): A function's restart completes, new settings apply and STATE becomes RUNNING or STOPPING. -/
  | fnRestartComplete (fn : Nat)
  /-- MP_TRIG_RUN (R524): A PERIOD elapses and the operator program of the slot runs, or the run is skipped. -/
  | mpTrigRun (die slot : Nat)
  /-- FN_CTRL_ENABLE (R455): A write of ENABLE stops or restarts a function or latches a pending change. -/
  | fnCtrlEnable (fn : Nat) (value : W32)
  /-- FREEZE (R482): A write of FREEZE stops or resumes recording. -/
  | freeze (value : W32)
  /-- CLEAR (R483): A write of CLEAR empties the recorder store, testing the SRAM when FAILED. -/
  | clear (value : W32)
  /-- TSQ_POP (R395): A write to TSQ_POP moves the oldest timestamp entry into TSQ_DATA. -/
  | tsqPop (mac : Nat) (value : W32)
  /-- LOCK_FORCE (R442): A write of LOCK_FORCE with GO releases a lock as abandoned. -/
  | lockForce (die : Nat) (value : W32)
  /-- SHUT (R438): A write of SHUT stops new grants and drains the arbiter, or reopens it. -/
  | shut (arb : Nat) (value : W32)
  /-- TB_STEP_HI (R493): A write to TB_STEP_HI applies a signed offset to every time-base copy. -/
  | tbStepHi (value : W32)
  /-- MASTERPREF (R467): A WL write of OTP_CFG.MASTERPREF changes the preferred master store die. -/
  | masterpref (value : W32)
  /-- IMPORTDIS (R467): A WL write of OTP_CFG.IMPORTDIS disables IMPORT irreversibly. -/
  | importdis (value : W32)
  /-- RC_COUNTER_READ (R390): A read of a counter's low register returns and clears it and copies its high half. -/
  | rcCounterRead (place : W32) (off : Nat)
  /-- REGISTER_WRITE (R514): A write to a register with no row of its own is checked whole and applied or discarded. -/
  | registerWrite (place : W32) (off : Nat) (value : W32)
  /-- HELLO_TIMER (R402): Every 1 ms each fabric MAC sends HELLO to the hello group. -/
  | helloTimer (mac : Nat)
  /-- NEIGHBOR_DOWN (R402): 3 ms pass without an accepted HELLO from a neighbour and it is down. -/
  | neighborDown (uid : BitVec 64) (mac : Nat)
  /-- STEM_RESOLVE (R421): A new acting executor gathers and applies prepared records of the stem before executing its commands. -/
  | stemResolve (bucket : Nat)
  /-- APPLY_MARK (R419): Within 100 us the executor sends an apply mark so replicas apply prepared records. -/
  | applyMark (uid : BitVec 64)
  /-- RFP_RETX_TIMEOUT (R401): An RFP stream's retransmission timer expires and lost stream messages are resent. -/
  | rfpRetxTimeout (uid : BitVec 64)
  /-- EXTEST (R505): TAP instruction EXTEST drives and captures boundary balls. -/
  | extest (scan balls : List Bool)
  /-- SAMPLE_PRELOAD (R505): TAP instruction SAMPLE/PRELOAD samples or preloads the boundary register. -/
  | samplePreload (scan balls : List Bool)
  /-- CLAMP (R505): TAP instruction CLAMP holds outputs from the boundary register with bypass selected. -/
  | clamp (scan : List Bool)
  /-- EXTEST_PULSE (R505): TAP instruction EXTEST_PULSE tests AC-coupled lanes with pulses. -/
  | extestPulse (scan balls : List Bool)
  /-- EXTEST_TRAIN (R505): TAP instruction EXTEST_TRAIN tests AC-coupled lanes with a pulse train. -/
  | extestTrain (scan balls : List Bool)
  /-- BYPASS (R505): TAP instruction BYPASS selects the one-bit bypass register. -/
  | bypass (tdi : Bool)
  /-- TRST_N (R495): TRST_N low resets the test access port only. -/
  | trstN (level : Bool)
  /-- ABORT_REPLY (R145): The handler of slot 0x13 starts for a committed ABORT and builds the ABORT reply from the outcome recorded in the command record. -/
  | abortReply (commit ctx : Nat)
  /-- SEL_RESTORED (R266): A reset selection bank finishes reloading its rows from their copies or the media record, and the table becomes complete again. -/
  | selRestored (bank : Nat)
  /-- CASCADE_CONNECTION_LOST (R265): A store die loses its cascade connection, the selection table becomes incomplete and SREAD and SWRITE commands are forwarded. -/
  | cascadeConnectionLost (die : Nat)
  /-- DLINK_RETRAIN_END (R469): A die link ends its retrain, returning to service or, when the retrain fails, being retired. -/
  | dlinkRetrainEnd (link : Nat) (trained : Bool)
  /-- ARB_GRANT_END (R438): A grant ends, the arbiter parks on its owner, NOREV clears and a draining shutter reaches DRAINED. -/
  | arbGrantEnd (arb : Nat)
  /-- SRAM_TEST_DONE (R487): The SRAM test started by a CLEAR in FAILED ends, emptying the store and clearing RECFAIL, or leaving the recorder FAILED. -/
  | sramTestDone (passed : Bool)
  /-- SDISCARD_PURGE (R323): Rank-4 purge work relocates the valid chunks of the superblocks that an MSDISC marked as targets and erases their blocks. -/
  | sdiscardPurge (die : Nat)
  /-- LOW_REGISTER_READ (R509): A read of a 64-bit RO value's _LO register copies its high half into _HI. -/
  | lowRegisterRead (place : W32) (off : Nat)
  /-- POWER_ON (R495): Supplies rise from below their minimum and the power-on detector clears the sticky set. -/
  | powerOn
  /-- HOLDUP_RESTART (R345): After the dump, PFAIL_N has been high and the supplies in range for 10 ms, and the package resets itself and starts BOOT. -/
  | holdupRestart
  /-- RESET_RELEASE (R498): All release conditions have held for 1 us and the package leaves RESET for BOOT. -/
  | resetRelease
  /-- ELECT_GRANT (R463): In ELECT, once every store die out of reset has requested or 1 ms has passed, the port die grants the first lease without a gap. -/
  | electGrant
  /-- ELECT_TIMEOUT (R463): ELECT ends after 5 ms with no holder and LINKUP begins. -/
  | electTimeout
  /-- LEASE_RENEWAL (R460): Every 100 us the holder sends a renewal request and the port die grants a 200 us term. -/
  | leaseRenewal
  /-- LEASE_TERM_END (R460): A lease term ends without renewal, the holder stops acting as master and the port die ends the lease and enters GAP. -/
  | leaseTermEnd
  /-- LEASE_GAP_END (R461): The 250 us gap ends and the port die grants the lease to the first requester in preference order, raising EPOCH. -/
  | leaseGapEnd
  /-- NOMASTER_TIMEOUT (R448): No store die has held the lease for more than 10 ms and cause NOMASTER is set. -/
  | nomasterTimeout
  /-- NOGEN_TIMEOUT (R424): 40 s after the end of MOUNT the package belongs to no committed generation and enters the read-only sub-state. -/
  | nogenTimeout
  /-- FORMAT_COMPLETE (R453): FORMAT finishes writing key tables, package tables, retirement lists and FORMAT anchors, and the package enters MOUNT. -/
  | formatComplete
  /-- REFCLK_LOSS (R491): The reference stops or leaves 1,000 ppm for 1 us and the root PLL enters holdover. -/
  | refclkLoss
  /-- REFCLK_RELOCK (R491): The reference has been valid for 10 ms and the root PLL relocks with a bounded phase slew. -/
  | refclkRelock
  /-- RING_TAKE (R379): In a CLKF cycle the classifier takes the oldest whole frame from the chosen ring and delivers it to its destination. -/
  | ringTake
  /-- INIT (R86): An INIT frame is verified and answered with ACCEPT or REFUSE, or dropped. -/
  | init
  /-- PAD (R91): A PAD item in a verified DATA frame is ignored. -/
  | pad
  /-- REQ (R93): A REQ item places its octets into the connection's request stream, the first verified DATA frame opening the connection. -/
  | req
  /-- ACK (R105): An ACK item from the client acknowledges frames, updates RTT and congestion state and declares frames lost. -/
  | ack
  /-- WINDOW (R103): A WINDOW item from the client raises the response window. -/
  | window
  /-- PING (R104): A PING item asks for an acknowledgement. -/
  | ping
  /-- CLOSE (R107): A client CLOSE sets FINAL and starts a graceful close of the connection. -/
  | close
  /-- RESET (R107): A RESET item from the client sends the connection to QUIET at once. -/
  | reset
  /-- LIMIT_RAISE (R100): A due connection is granted a request-limit raise from the pool and a WINDOW item is sent. -/
  | limitRaise
  /-- GATE_LEAVE (R134): A message that met R95 leaves the admission gate in order when the package count and the sequencer allow. -/
  | gateLeave
  /-- ABORT (R143): An ABORT message arrives whole and the terminator records NOTARGET, CAUGHT or NOTCAUGHT for the target. -/
  | abort
  /-- ALLOC_APPLY (R249): The allocator applies the change list of the next commit number through the three-step row updates. -/
  | allocApply
  /-- EVENT_INPUT (R479): Up to four events per CLKM cycle enter the recorder, pass the rate limit and enter the FIFO or are dropped. -/
  | eventInput
  /-- EVENT_WRITE (R479): The writer stores one record, or an EV_LOST record, every 8 CLKM cycles. -/
  | eventWrite
  /-- RESET_DELAY_END (R451): 1 ms after a MODESET RESET response the package enters RESET. -/
  | resetDelayEnd
  /-- RREAD (R515): RREAD performs a batch of register reads at its commit number. -/
  | rread
  /-- RWRITE (R515): RWRITE performs a batch of register writes at its commit number. -/
  | rwrite
  /-- TREAD (R518): TREAD reads entries of an indirect table. -/
  | tread
  /-- TWRITE (R518): TWRITE writes entries of an indirect table durably. -/
  | twrite
  /-- HBIND (R234): HBIND binds an image, or the factory image, to a handler-table slot. -/
  | hbind
  /-- HEMPTY (R235): HEMPTY empties a handler-table slot. -/
  | hempty
  /-- HREAD (R156): HREAD returns a handler-table entry and image count. -/
  | hread
  /-- PBIND (R237): PBIND loads an operator management program into a slot. -/
  | pbind
  /-- PRUN (R521): PRUN runs an operator program to its end. -/
  | prun
  /-- MODESET_RESET (R451): MODESET with MODE RESET and correct CONFIRM schedules a package reset. -/
  | modesetReset
  /-- MODESET_SERVICE (R451): MODESET with MODE SERVICE returns the package from DRAIN to SERVICE or DEGRADED. -/
  | modesetService
  /-- MODESET_DRAIN (R452): MODESET with MODE DRAIN puts the package in DRAIN. -/
  | modesetDrain
  /-- MODESET_FORMAT (R453): MODESET with MODE FORMAT starts formatting the package. -/
  | modesetFormat
  /-- OTPSET (R466): OTPSET changes an OTP setting and uses one count. -/
  | otpset
  /-- MASTERMOVE (R464): MASTERMOVE refuses the holder's renewal and moves the lease. -/
  | mastermove
  /-- KSERASE (R327): KSERASE removes objects of namespaces bound to a key slot and replaces the slot key. -/
  | kserase
  /-- FABFORM (R408): FABFORM makes joiners form the first generation once COUNT joiners are reachable. -/
  | fabform
  /-- FABREMOVE (R409): FABREMOVE removes a unique ID from the membership by the next generation. -/
  | fabremove
  /-- LSA_TIMER (R403): Every 100 ms a package originates an LSA. -/
  | lsaTimer
  /-- PROPOSE_START (R406): The coordinator's database has been unchanged for 20 ms and it proposes the next generation. -/
  | proposeStart
  /-- PROPOSE_RESEND (R407): A proposal not committed within 50 ms is sent again. -/
  | proposeResend
  /-- HELLO (R402): A received HELLO records the neighbour's addresses and brings the neighbour up. -/
  | hello
  /-- LSA (R403): A newer LSA is stored, flooded and routes are recomputed. -/
  | lsa
  /-- PROPOSE (R406): A received proposal is voted for when the voter's database is stable and names the proposer. -/
  | propose
  /-- VOTE (R407): The coordinator counts a vote and commits on a strict majority. -/
  | vote
  /-- COMMIT (R407): A received COMMIT is written to the fabric record and the generation adopted. -/
  | commit
  /-- FWD (R416): A forwarded command is ordered at the executor's sequencer and executed. -/
  | fwd
  /-- FWDRSP (R416): A forwarded response is sent on the client connection by the forwarder. -/
  | fwdrsp
  /-- REPL (R419): A replica places a write record in its saggar and answers PREPARED, STALEGEN or NOTSERVING. -/
  | repl
  /-- REPLACK (R419): The executor collects answers and applies the write when every replica has prepared it. -/
  | replack
  /-- COPY (R414): A filling replica applies a COPY snapshot or journal records and sets FILLDONE when caught up. -/
  | copy
  /-- SYNC (R418): A SYNC request or reply reports whether a forwarded write is flushed at its executor. -/
  | sync
  /-- RFP_ACK (R401): An RFP ACK acknowledges stream messages and declares losses. -/
  | rfpAck
  /-- IDCODE (R505): TAP instruction IDCODE selects the identification register. -/
  | idcode
  /-- HIGHZ (R505): TAP instruction HIGHZ floats every boundary output. -/
  | highz
  /-- BOOTSTAT (R505): TAP instruction BOOTSTAT captures BOOT_STAT into a 32-bit register. -/
  | bootstat
  /-- NOCODE (R510): A committed Transom request whose CODE is not listed is answered with TSTATUS NOCODE and changes nothing. -/
  | nocode
  /-- LINKUP_TIMEOUT (R549): 2 s after LINKUP began, LINKUP ends even though some lanes have not trained, and the package enters MOUNT or IMPORT. -/
  | linkupTimeout
  /-- FABRIC_RECORD_WRITTEN (R504): A fabric record copy reads back correct, after which the pending VOTE is sent or the COMMIT is adopted. -/
  | fabricRecordWritten
  /-- SLC_PROGRAMS_END (R345): In HOLDUP the SLC programs already set up end, and each store die starts its dump. -/
  | slcProgramsEnd
  /-- PTP_MESSAGE (R494): The time-base program takes a PTP message from the PTP receive queue, runs the best master clock algorithm and slews or steps the time base. -/
  | ptpMessage
  /-- PTP_SYNC_TIMEOUT (R494): 3 s pass without a usable Sync, LOCKED reads 0 and TB_ADJ keeps its last value. -/
  | ptpSyncTimeout
deriving DecidableEq, Repr

end Sys2Proof
end

