-- ==== Sys2Proof/Config.lean ====
section
/-! DEFINITION. What one package is fused or left free with: opaque constants that no proof can evaluate. Every value that
spec/ leaves open is read from here, and notes/assumptions says which. -/

namespace Sys2Proof.Config

/-- The random source (R83, R155, R325, R453): octet n ever drawn, n being `State.draws` (log 3). -/
opaque randomOctet : Nat → BitVec 8

/-- The fused 64-bit unique ID of the package (Table 18-10). -/
opaque uid : BitVec 64

/-- The fused revision (Table 18-10, R505). -/
opaque rev : BitVec 4

/-- Whether the octets of an image carry a signature that verifies under the image-signing key of the boot ROM (R500). -/
opaque signatureVerifies : Octets → Bool

/-- CHECK of a selection row (Table 8-1): the code is not specified, only that the all-0 row is valid (log 9). -/
opaque rowCheckCode : BitVec 177 → BitVec 9

/-- Receive-eye readings of a lane training: height in mV and width in 1/256 UI (Table 18-18), free for each draw. -/
opaque laneEye : Nat → BitVec 8 × BitVec 8

/-- The media root key that the factory drew from the random source (Table 15-13). -/
opaque factoryMediaRoot : BitVec 256

/-- A value that spec/ does not state, free for each draw (log 3). -/
opaque freeValue : Nat → BitVec 64

/-- The 400 octets of LDPC parity over a codeword's 4,208 octets (R282): the code is not specified. -/
opaque ldpcParity : List (BitVec 8) → List (BitVec 8)

/-- Pad octet n beyond octet 18,432 of a physical page (R282), never read. -/
opaque padOctet : Nat → BitVec 8

end Sys2Proof.Config
end

