-- ==== Sys2Proof/Machine/Bits.lean ====
section
/-! DEFINITION. Octets, byte order and bit fields (R12): wire formats big-endian, registers and scratch little-endian. -/

namespace Sys2Proof.Machine

/-- `n` octets of `v`, most significant first. -/
def beOctets (n v : Nat) : Octets := (List.range n).reverse.map (fun i => BitVec.ofNat 8 (v >>> (8 * i)))

/-- `n` octets of `v`, least significant first. -/
def leOctets (n v : Nat) : Octets := (List.range n).map (fun i => BitVec.ofNat 8 (v >>> (8 * i)))

/-- The number that `o` spells, most significant octet first. -/
def beNat (o : Octets) : Nat := o.foldl (fun acc b => acc * 256 + b.toNat) 0

/-- The number that `o` spells, least significant octet first. -/
def leNat (o : Octets) : Nat := o.foldr (fun b acc => acc * 256 + b.toNat) 0

/-- Octets `off` to `off + n − 1`; fewer where `o` ends. -/
def slice (o : Octets) (off n : Nat) : Octets := (o.drop off).take n

/-- The big-endian field of `n` octets at `off`; octets beyond the end count as absent. -/
def beAt (o : Octets) (off n : Nat) : Nat := beNat (slice o off n)

/-- The little-endian field of `n` octets at `off`. -/
def leAt (o : Octets) (off n : Nat) : Nat := leNat (slice o off n)

/-- `n` zero octets. -/
def zeros (n : Nat) : Octets := List.replicate n 0#8

/-- Every octet is 0. -/
def allZero (o : Octets) : Bool := o.all (fun b => b == 0#8)

/-- `o` cut or filled with zeros to `n` octets. -/
def fitTo (n : Nat) (o : Octets) : Octets := o.take n ++ zeros (n - o.length)

/-- Bits [lo + w − 1:lo] of a number. -/
def bitsOf (v lo w : Nat) : Nat := (v >>> lo) % 2 ^ w

/-- Bits [lo + w − 1:lo] of a register. -/
def field (v : W32) (lo w : Nat) : Nat := bitsOf v.toNat lo w

/-- One bit of a number. -/
def bitAt (v n : Nat) : Bool := v.testBit n

/-- A flag as a number. -/
def bit01 (b : Bool) : Nat := if b then 1 else 0

/-- A 32-bit register from a number. -/
def w32 (n : Nat) : W32 := BitVec.ofNat 32 n

/-- A 64-bit register from a number. -/
def w64 (n : Nat) : W64 := BitVec.ofNat 64 n

/-- Bits of `old` outside `mask` with bits of `new` inside it. -/
def mergeBits (mask old new : W32) : W32 := (old &&& ~~~mask) ||| (new &&& mask)

/-- Lexicographic order of octet strings, a proper prefix first (R53): -1, 0 or 1. -/
def octetsCmp : Octets → Octets → Int
  | [], [] => 0
  | [], _ :: _ => -1
  | _ :: _, [] => 1
  | a :: as, b :: bs => if a.toNat < b.toNat then -1 else if b.toNat < a.toNat then 1 else octetsCmp as bs

/-- `p` begins `o`. -/
def startsWith (p o : Octets) : Bool := decide (o.take p.length = p)

/-- Little-endian words of an octet string, four octets each. -/
def leWords : Nat → Octets → List W32
  | 0, _ => []
  | n + 1, o => w32 (leNat (o.take 4)) :: leWords n (o.drop 4)

/-- Ceiling division. -/
def ceilDiv (a b : Nat) : Nat := (a + b - 1) / b

end Sys2Proof.Machine
end

