-- ==== Sys2Proof/Machine/State.lean ====
section
/-! DEFINITION. The state of the EZ-8256 as plain data: everything spec/ gives the package, block by block, the two
outcomes a command can stop with, and State.reset. Sparse tables (`Tab`) list only what differs from the reset value that
the accessors of Machine/Ops.lean supply, so `[]` is a table at its reset values. Field comments cite the rule of spec/. -/

namespace Sys2Proof.Machine

/-! ## Time, pins, clocks (17, 19) -/

/-- Input balls and the outputs ALERT_N and THERMTRIP_N (R488, R498, R541, R545). Levels: true is high. -/
structure Pins where
  porst : Bool := true
  wrst : Bool := true
  pfail : Bool := true
  trst : Bool := true
  /-- Supplies in range, by DIE (R498, R539): dies not listed are in range. -/
  supplyBad : Tab Bool := []
  /-- ALERT_N driven low. -/
  alert : Bool := false
  /-- THERMTRIP_N driven low (R545); kept through HOLDUP and reset. -/
  thermTrip : Bool := false
deriving DecidableEq, Repr

/-- Output balls of the flash channels and of the quad-SPI NOR (R542): chip enables and write protect of a channel, its other
outputs, chip select of the NOR, its other outputs. -/
inductive OutBall where
  | flashCe (channel : Nat) (n : Nat)
  | flashWp (channel : Nat)
  | flashOther (channel : Nat)
  | qspiCs
  | qspiOther
deriving DecidableEq, Repr

/-- What drives an output ball: a high level, nothing, its boundary cell, or the block that it belongs to. -/
inductive Drive where
  | high | highZ | boundary | functional
deriving DecidableEq, Repr

/-- Temperature and supply registers of one die (Table 18-13, R545). -/
structure DieMon where
  tripped : Bool := false
  /-- °C × 4, two's complement in 12 bits. -/
  tj : BitVec 12 := 0
  hot : Bool := false
  /-- The last sample was at or above 115 °C. -/
  over115 : Bool := false
deriving DecidableEq, Repr

/-- Root PLL, CLKT count and time base (R489 to R494, R475). -/
structure Clock where
  rootLock : Bool := false
  holdover : Bool := false
  refLoss : Bool := false
  /-- CLKT cycles since the release of the last package reset (R469). -/
  cycles : Nat := 0
  /-- Time base in units of 2^-32 ns (R492). -/
  tb : BitVec 96 := 0
  tbCtrl : W32 := 0
  tbAdj : W32 := 0
  stepLo : W32 := 0
  nowHi : W32 := 0
  locked : Bool := false
  /-- Consecutive Sync intervals with an offset below 1 µs (R494). -/
  goodSyncs : Nat := 0
  /-- The Announce message of the master in use: its priority vector (R494). -/
  ptpMaster : Option Octets := none
  /-- The two-step Sync awaiting its Follow_Up: sequenceId and receive timestamp. -/
  syncPend : Option (Nat × Nat) := none
  /-- Last Sync measured: origin time and receive time. -/
  syncPair : Option (Nat × Nat) := none
  /-- Delay_Req sent: sequenceId and transmit timestamp once popped. -/
  delayReq : Option (Nat × Option Nat) := none
  ptpSeq : Nat := 0
  /-- Mean path delay measured last, ns. -/
  meanDelay : Int := 0
  /-- Availability counters in CLKT cycles (R475): milliseconds are cycles ÷ 100,000. -/
  upCycles : Nat := 0
  downCycles : Nat := 0
  upHi : W32 := 0
  downHi : W32 := 0
deriving DecidableEq, Repr

/-! ## Mode, functions, alerts (15, 16) -/

/-- The modes of Table 15-1. -/
inductive Mode where
  | reset | boot | elect | linkup | mount | service | degraded | drain | reprogram | format | imports | holdup
deriving DecidableEq, Repr

/-- The steps of HOLDUP and of a reset dump (Table 11-9, R496). -/
inductive DumpPhase where
  | idle
  /-- SLC programs already set up are ending (step 5). -/
  | programs
  /-- The dump is being written (step 6). -/
  | dumping
  | done
deriving DecidableEq, Repr

/-- FN_STAT.STATE (Table 15-8). -/
inductive FnState where
  | running | stopping | stopped | starting
deriving DecidableEq, Repr

/-- One function of Table 15-6 (R455, R456). -/
structure Fn where
  enable : Bool := true
  retrain : Bool := false
  state : FnState := .running
  restartPending : Bool := false
  stopPending : Bool := false
  /-- Commit number s of the write that began STOPPING. -/
  stopAt : Nat := 0
  /-- Commit number t of the write that began STARTING. -/
  startAt : Nat := 0
  /-- Commit number of the write that set STOP_PENDING. -/
  nextStop : Nat := 0
deriving DecidableEq, Repr

/-- Mode, causes and alert registers (Tables 15-3, 15-5, 16-8). -/
structure ModeSt where
  mode : Mode := .reset
  /-- Table 15-3, bits 7 to 0. -/
  degr : BitVec 8 := 0
  drained : Bool := false
  /-- DRAIN has emptied the saggar and asked for an epoch of each store die (R452). -/
  drainAsked : Bool := false
  importing : Bool := false
  alertCause : BitVec 7 := 0
  alertMask : BitVec 7 := 0
  /-- Sources of a package reset still to act: a MODESET RESET answered (R451). -/
  resetScheduled : Bool := false
  dump : DumpPhase := .idle
  /-- The mode from which a PACKAGE stop began (Table 15-2). -/
  stopFrom : Mode := .service
  /-- MOUNT's media part has ended (R358, R424). -/
  mounted : Bool := false
  fns : Tab Fn := []
  waitLimit : W32 := 1000#32
  bootFailed : Bool := false
  bootStat : W32 := 0xFFFF0000#32
deriving DecidableEq, Repr

/-- OTP settings and the counts left (Table 15-13). Lane map octets by global lane; unlisted lanes hold identity. -/
structure Otp where
  fabDom : BitVec 64 := 0
  rootMgmt : BitVec 256 := 0
  /-- Changes of the media root key made; the key itself is the free value of that draw or the value of OTPSET 3. -/
  mediaRoot : Option (BitVec 256) := none
  laneMap : Tab Byte := []
  masterPref : Nat := 0
  importDis : Bool := false
  leftFabDom : Nat := 8
  leftRootMgmt : Nat := 16
  leftMediaRoot : Nat := 16
  leftLaneMap : Nat := 4
  leftMasterPref : Nat := 4
  leftImportDis : Nat := 1
deriving DecidableEq, Repr

/-! ## Event recorder (16) -/

/-- One event as its source raises it (Table 16-4 without SEQ). -/
structure Event where
  code : Nat
  source : Nat
  time : BitVec 64
  p0 : W32 := 0
  p1 : W32 := 0
  p2 : W32 := 0
  p3 : W32 := 0
deriving DecidableEq, Repr

/-- One stored record: the event with its SEQ (R478). -/
structure Record where
  ev : Event
  seq : W32
deriving DecidableEq, Repr

/-- The event recorder (R476 to R487, R547). -/
structure Recorder where
  /-- Stored records, newest first. -/
  store : List Record := []
  /-- Number of records held; COUNT. -/
  count : Nat := 0
  seq : W32 := 0
  /-- The record stored last was EV_LOST (R479). -/
  lastLost : Bool := false
  /-- FREEZE was written 0: the next record stored is EV_LOST (R482). -/
  owesLost : Bool := false
  /-- Events held by their sources at the input, then those presented first, each list in order of raising. -/
  held : List Event := []
  input : List Event := []
  fifo : List Event := []
  pendLost : Nat := 0
  pendFreeze : Nat := 0
  freeze : Bool := false
  failed : Bool := false
  rate : Nat := 16
  /-- RATE of the window under way (R479). -/
  rateNow : Nat := 16
  window : Nat := 0
  counts : Tab Nat := []
  supp : Tab Nat := []
  lostFifo : Nat := 0
  lostFrozen : Nat := 0
  lostFull : Nat := 0
  corr : Nat := 0
  fsCause : Nat := 0
  fsIndex : Nat := 0
  fsCount : Nat := 0
  fsTime : BitVec 64 := 0
  /-- EV_FS_TIME_HI as the last read of EV_FS_TIME_LO left it (R509). -/
  fsHi : W32 := 0
  fsLost : Nat := 0
  /-- Position of the failing record, when it is a stored one (R487). -/
  badPos : Option Nat := none
  testing : Bool := false
deriving DecidableEq, Repr

/-! ## Ethernet (12) -/

/-- One lane (R365, Table 18-18). -/
structure Lane where
  inService : Bool := false
  lock : Bool := false
  retraining : Bool := false
  mapped : Bool := false
  /-- Retrains counted and the window they are counted in (R469). -/
  retrains : Nat := 0
  window : Nat := 0
  eyeH : Nat := 0
  eyeW : Nat := 0
deriving DecidableEq, Repr

/-- WP settings of a MAC (Tables 12-6 to 12-13, 13-8). -/
structure MacCfg where
  macCtrl : W32 := 0x24006C#32
  macFc : W32 := 0xFFFFFF#32
  ringCfg : Tab W32 := []
  ringWm : Tab W32 := []
  dscpMap : Tab W32 := []
  filter : Tab (BitVec 256) := []
  fabMac : W32 := 0x5E#32
deriving DecidableEq, Repr

/-- A received frame with the time of its first octet (R392, R393). -/
structure RxFrame where
  octets : Octets
  time : BitVec 64
deriving DecidableEq, Repr

/-- A frame in a transmit queue. -/
structure TxFrame where
  octets : Octets
  /-- A timestamp request for a PTP event message (R394). -/
  stamp : Bool := false
deriving DecidableEq, Repr

/-- A pause frame due from a MAC: PFC or PAUSE, priorities covered and quanta (R387). -/
structure PauseDue where
  pfc : Bool
  prios : List (Nat × Nat)
  /-- CLKT cycle of the change or refresh: one frame carries those of a cycle (R387). -/
  cycle : Nat := 0
deriving DecidableEq, Repr

/-- One MAC (R364 to R396). Rings and queues are by priority 0 to 7. -/
structure Mac where
  link : Bool := false
  /-- The lanes of the MAC failed their training in this LINKUP (R549). -/
  trainFailed : Bool := false
  cfg : MacCfg := {}
  live : MacCfg := {}
  tsAdj : W32 := 0
  counters : Tab Nat := []
  hi : Tab W32 := []
  rings : Tab (List RxFrame) := []
  queues : Tab (List TxFrame) := []
  /-- Frames whose producers wait for room in a queue or in transmit frame memory, with the queue of each (R384). -/
  waiting : List (Nat × TxFrame) := []
  /-- Priority p in XOFF by its own ring (R386). -/
  xoff : Tab Bool := []
  /-- State last sent for the whole MAC under PAUSE. -/
  pauseSent : Bool := false
  pauseDue : List PauseDue := []
  /-- Queue p paused by the partner: remaining pause time in quanta (R388). -/
  paused : Tab Nat := []
  tsq : List (BitVec 128) := []
  tsLost : Nat := 0
  tsqData : BitVec 128 := 0
deriving DecidableEq, Repr

/-- One port group (Table 12-3): PG_CTRL as written and in force, and the lane map octets in force, lane 0 in the low octet
(R465, R466; they follow OTP at the group's restart and at reset). -/
structure Group where
  cfg : W32 := 0x10#32
  live : W32 := 0x10#32
  laneMap : Option W32 := none
  fecCorr : Nat := 0
  fecUncorr : Nat := 0
  linkDown : Nat := 0
  hi : Tab W32 := []
deriving DecidableEq, Repr

/-- The packet network of the port die. -/
structure Net where
  lanes : Tab Lane := []
  groups : Tab Group := []
  macs : Tab Mac := []
  poolWm : W32 := 0x10000800#32
  poolXoff : Bool := false
  ptpQueue : List (Nat × RxFrame) := []
  /-- MAC served last by the classifier's rotation (R379). -/
  lastMac : Nat := 127
  /-- Frames that have left a MAC, newest first: the observer's record (model's own). -/
  wire : List (Nat × Octets) := []
deriving DecidableEq, Repr

/-! ## WOT (03, 04) -/

/-- Path of a connection (R76), with what R382 takes from the frame that set it. -/
structure Path where
  mac : Nat
  ip : Addr
  port : Nat
  pip : Addr
  pport : Nat
  eth : BitVec 48
  vlan : Option Nat
  prio : Nat
  dscp : Nat
deriving DecidableEq, Repr

/-- Items of a DATA frame (Table 3-6). -/
inductive Item where
  | pad
  | req (off : Nat) (data : Octets)
  | rsp (last : Bool) (rsn tag off : Nat) (data : Octets)
  | ack (delay largest : Nat) (map : BitVec 64)
  | window (value : Nat)
  | ping
  | close (final : Nat)
  | reset (reason : Nat) (detail : Nat)
deriving DecidableEq, Repr

/-- A frame sent that needs an acknowledgement (R104, R105). -/
structure Sent where
  pn : Nat
  items : List Item
  time : Nat
deriving DecidableEq, Repr

/-- A part of a response: octets, or a range of an object's value read when it is sent (R170). -/
inductive Seg where
  | octets (o : Octets)
  | range (die : Nat) (handle : W32) (off len : Nat)
deriving DecidableEq, Repr

/-- A response message on its way (R101, R102). -/
structure Rsp where
  tag : Nat
  commit : Nat
  segs : List Seg
  rsn : Option Nat := none
  sent : Nat := 0
  /-- Response to an ABORT: held until this target's final response is sent in full (R145). -/
  after : Option Nat := none
  /-- Counted in the outstanding messages and tags; an ABORTED completion is not (R133, R144). -/
  counted : Bool := true
deriving DecidableEq, Repr

/-- Connection states (Table 3-5). -/
inductive ConnState where
  | free | opening | open | closing | quiet
deriving DecidableEq, Repr

/-- One connection (03). -/
structure Conn where
  state : ConnState := .free
  /-- Raised when the connection ends, so that responses of an earlier holder are discarded (R109). -/
  gen : Nat := 0
  cred : Nat := 0
  mgmt : Bool := false
  path : Option Path := none
  kcd : Octets := []
  kdc : Octets := []
  nc : Octets := []
  accept : Octets := []
  maxFrame : Nat := 1200
  idle : Nat := 30
  rspWin : Nat := 0
  limit : Nat := 0
  /-- Client PNs received, highest first, those above highest − 4,096 (R92). -/
  pns : List Nat := []
  pnTx : Nat := 1
  segs : List (Nat × Octets) := []
  /-- Highest stream position received plus 1 (R100). -/
  high : Nat := 0
  /-- Stream position up to which messages have passed stage 3 or were discarded (R100). -/
  consumed : Nat := 0
  final : Option Nat := none
  closeSent : Option Nat := none
  /-- Tags outstanding (R97). -/
  tags : List Nat := []
  rsps : List Rsp := []
  lastRsn : Nat := 0
  /-- Response octets sent and unacknowledged (R103) are in these frames. -/
  unacked : List Sent := []
  /-- Items of lost frames that the windows do not yet let go again, oldest frame first (R103, R105). -/
  resend : List (List Item) := []
  ackOwed : Nat := 0
  /-- CLKT cycle in which the frame with the highest PN arrived: DELAY of an ACK counts from it. -/
  lastRx : Nat := 0
  cwnd : Nat := 262144
  srtt : Nat := 0
  rttvar : Nat := 0
  rttKnown : Bool := false
  backoff : Nat := 0
  lossSince : Bool := false
  roundEnd : Nat := 0
deriving DecidableEq, Repr

/-- Credential table entry (Table 3-4). -/
structure Cred where
  valid : Bool := false
  mgmt : Bool := false
  nsLo : Nat := 0
  nsHi : Nat := 4095
  psk : BitVec 256 := 0
deriving DecidableEq, Repr

/-- A message that met R95 and waits at the admission gate (R134). -/
structure GateMsg where
  conn : Nat
  gen : Nat
  mgmt : Bool
  pos : Nat
  msg : Octets
deriving DecidableEq, Repr

/-- What the classifier hands to the WOT terminator (Table 12-8). -/
inductive TermItem where
  | init (path : Path) (frame : Octets)
  | item (conn : Nat) (gen : Nat) (i : Item)
deriving DecidableEq, Repr

/-- The outcome that the terminator records for an ABORT (R144): 0 NOTARGET, 1 CAUGHT, 2 NOTCAUGHT, 3 not yet recorded.
`target` is the commit number of a target NOTCAUGHT, the stream position of one CAUGHT. -/
structure AbortRec where
  conn : Nat
  gen : Nat
  pos : Nat
  outcome : Nat
  target : Nat
deriving DecidableEq, Repr

/-- WOT terminator, gate and sequencer. -/
structure Wot where
  cfg : W32 := 0x1E1D1A#32
  conns : Tab Conn := []
  lastRaise : Nat := 65535
  term : List TermItem := []
  gate : List GateMsg := []
  aborts : List AbortRec := []
  counters : Tab Nat := []
  hi : Tab W32 := []
  /-- Last commit number assigned, end of the reserved block, sequencer resumed (R54, R55, R548). -/
  lastCommit : Nat := 0
  blockEnd : Nat := 0
  resumed : Bool := false
  /-- A number has been assigned since the reset or the FORMAT (R67). -/
  numbered : Bool := false
  seqHi : W32 := 0
  /-- Outstanding messages (R133). -/
  outstanding : Nat := 0
deriving DecidableEq, Repr

/-! ## Handlers, commands, invocations (04 to 07) -/

/-- Handler-table entry (Table 5-3). -/
structure HEntry where
  valid : Bool := false
  det : Bool := false
  cls : Nat := 0
  dsag : Bool := false
  budget : Nat := 0
  len : Nat := 0
  imageId : W32 := 0
  loads : Nat := 0
deriving DecidableEq, Repr

/-- An image: the boot-ROM image of a default opcode, whose words the spec does not list, or instruction words. -/
inductive Image where
  | factory (opcode : Nat)
  | words (ws : List W32)
deriving DecidableEq, Repr

/-- One slot of the handler table: the entry in force with its image, and the older image still in use (R159). -/
structure HSlot where
  entry : HEntry := {}
  image : Option Image := none
  older : Option (W32 × Image) := none
deriving DecidableEq, Repr

/-- A change staged in a stopped HANDLERS function (R236). -/
structure HStage where
  slot : Nat
  entry : HEntry
  image : Option Image
deriving DecidableEq, Repr

/-- Where a command's DATA stands in the saggar (R32). -/
structure Placed where
  die : Nat
  ref : Nat
  home : Bool
  mirror : Bool
deriving DecidableEq, Repr

/-- Where a committed command stands (R30, R161). -/
inductive Phase where
  | waitGrant
  | queued
  | running (x : CtxId)
  /-- Ended; its response waits for the allocator (R251), the purge (R214) or the replicas (R419). -/
  | holding
  | responding
  | forwarded
deriving DecidableEq, Repr

/-- One committed command until its final response is sent (R31, R153). -/
structure Cmd where
  commit : Nat
  conn : Nat
  gen : Nat
  tag : Nat
  msg : Octets
  keyHash : W64
  stemHash : W64
  hasStem : Bool
  entry : HEntry
  image : Option Image
  region : Nat
  engine : Nat
  phase : Phase
  data : Option Placed
  /-- Request-data area octets granted (R154). -/
  granted : Nat
  /-- Forwarder's unique ID and commit number, for a command received in FWD (R416). -/
  origin : Option (BitVec 64 × Nat)
  rsp : List Seg
  holdAlloc : Bool
  holdErase : List Nat
  /-- FENCE class hold: later commands of the connection wait (R142). -/
  fenced : Bool
  /-- Holds a large-response unit of its die until the response is sent (R169). -/
  large : Bool := false
  /-- A binding of the command's slot with a lower commit number is still to take effect: no entry yet (R235, R236). -/
  unbound : Bool := false
  /-- The package was read-only, and the namespace's RDONLY 1, at the commit number (R229). -/
  pkgRo : Bool := false
  nsRdonly : Bool := false
  /-- The link of its store die that carries it (R23, R24). -/
  link : Nat := 0
deriving DecidableEq, Repr

/-- A media operation in a slot (R210). -/
inductive MediaOp where
  | value (handle : W32) (chunk coff clen dst : Nat)
  | keyrec (handle : W32) (dst : Nat)
  | fill (handle : W32)
  /-- The result of a write or of MDISC is settled as it issues (R210, R212, R213). -/
  | staged (base : W32) (off : Nat) (data : Octets) (result : Nat)
  | part (putid : W64) (chunk : Nat) (result : Nat)
  | mdisc (putid : W64) (result : Nat)
  | msdisc (keyHash : W64)
deriving DecidableEq, Repr

inductive MediaSlot where
  | idle
  /-- An operation under way, with the number of changes staged as it issued: what a read sees (R210, R211). -/
  | busy (op : MediaOp) (seen : Nat)
  | done (result : Nat)
deriving DecidableEq, Repr

/-- The key that a new entry takes: its hash and its octets (R205). -/
structure KeyName where
  hash : W64
  key : Octets
deriving DecidableEq, Repr

/-- One directory write of an invocation, staged until DONE (R172, R204). SRC as Table 6-10. -/
inductive Staged where
  /-- DINS of a live entry: slot reserved, value source, length, metadata. -/
  | ins (handle : W32) (who : KeyName) (src : Nat) (putid : Nat) (len : Nat) (usermeta : W64)
  /-- DINS of a pending put, with the handle of the STATE 2 entry when NEWENT is 1. -/
  | pend (handle : Option W32) (who : KeyName) (len : Nat) (usermeta : W64)
  | upd (handle : W32) (src : Nat) (putid : Nat) (len : Nat) (usermeta : W64)
  | del (handle : W32)
  | endPut (putid : Nat)
  /-- MWRITE PART: the command's DATA becomes parts of a pending put from a chunk onward (R212). -/
  | part (putid chunk : Nat)
  /-- Selection row written at a reserved or existing index. -/
  | row (index : Nat) (reqmask stem : W64) (prio : Nat) (handle : W32) (fresh : Bool)
  | rowDel (index : Nat)
deriving DecidableEq, Repr

/-- One slot of the search log (R247). -/
structure LogSlot where
  stem : W64
  caps : W64
  frontPrio : Nat
  frontIndex : Nat
  /-- A position has been returned for this pair. -/
  any : Bool
  multi : Bool
  used : Nat
deriving DecidableEq, Repr

/-- What a factory image waits for: the placement of DATA, the ledger, the allocator, a fence, an erase, the order of a
SUCC query, a search, a large-response unit. -/
inductive Why where
  | saggar | ledger | alloc | fence | erase | succ | search | large
deriving DecidableEq, Repr

/-- What a waiting context waits for (R164), with what the wake-up needs. -/
inductive Wait where
  | none
  | lookup (rd : Nat) (hash : W64) (ns k dst : Nat)
  | succ (rd : Nat) (ns : Nat) (key : Octets) (dst : Nat)
  | putRec (rd : Nat) (putid : Nat) (dst : Nat)
  /-- DINS: ledger first, then the directory (R298); the second field is 1 once room was decided, with its answer. -/
  | ins (rd : Nat) (desc : W64) (block : Octets) (room : Option Bool)
  | upd (rd : Nat) (handle : W32) (desc : W64) (block : Octets)
  | del (rd : Nat) (handle : W32)
  | sel (rd : Nat) (stem caps : W64) (dst : Nat)
  | selNext (rd : Nat) (stem caps : W64) (cursor : W64) (multi : Bool) (dst : Nat)
  | sadd (rd : Nat) (reqmask stem : W64) (prio : Nat) (handle : W32)
  | slot (rd k : Nat)
  | saggar (rd : Nat)
  | lock (rd : Nat) (place : Nat)
  | fence (func : Nat)
  | large (from_ n : Nat)
  | icache
  | spill
  | window
  | rdreg (rd : Nat) (place : W32) (off : W64)
  | wrreg (place : W32) (off : W64) (value : W32)
  /-- A factory image waits inside its one step for one of its waits. -/
  | factory (why : Why)
deriving DecidableEq, Repr

/-- What a context runs: a client command or a management program. -/
inductive Work where
  | command (commit : Nat)
  /-- A program run on a management engine: slot, and the Transom request that asked for it, or none for MP_TRIG. -/
  | program (slot : Nat) (req : Option Nat)
deriving DecidableEq, Repr

/-- One invocation in a context (Table 5-1, Table 5-5). -/
structure Inv where
  work : Work
  image : Image
  len : Nat
  cls : Nat
  dsag : Bool
  budget : Nat
  charged : Nat := 0
  pc : Nat := 0
  regs : Tab W64 := []
  status : W64 := 0
  tag : Nat := 0
  conn : Nat := 0
  commit : Nat := 0
  msg : Octets := []
  msgLen : Nat := 0
  keyHash : W64 := 0
  stemHash : W64 := 0
  rsp : Mem := []
  scratch : Mem := []
  slots : Tab MediaSlot := []
  staged : List Staged := []
  /-- Octets of the staged value by offset, and its base (R212). -/
  stagedVal : List (Nat × Octets) := []
  stagedBase : Option W32 := none
  out : List Seg := []
  outLen : Nat := 0
  descs : Nat := 0
  large : Bool := false
  log : Tab LogSlot := []
  logClock : Nat := 0
  wait : Wait := .none
  /-- Index and charge of the instruction that waits (R178). -/
  waitPc : Nat := 0
  waitCharge : Nat := 0
  start : Nat := 0
  /-- An MSDISC has been issued (R214). -/
  erased : Bool := false
  /-- The search of a factory image has been resolved and verified (R255 to R257). -/
  searched : Bool := false
  /-- Place of its request in the order in which the directory ports receive requests (R149). -/
  ticket : Nat := 0
deriving DecidableEq, Repr

/-- A request engine or cluster's fault state (Table 16-1). -/
structure UnitFault where
  retired : Bool := false
  resets : Nat := 0
  window : Nat := 0
deriving DecidableEq, Repr

/-- A committed Transom request, or one executed without a number (R548). -/
structure TReq where
  commit : Nat
  conn : Nat
  gen : Nat
  tag : Nat
  msg : Octets
  /-- Waiting inside a request: PRUN's program runs, MASTERMOVE waits for the grant. -/
  started : Bool := false
deriving DecidableEq, Repr

/-- An operator management program (R237, R521). -/
structure Prog where
  words : List W32
  budget : Nat
  imageId : W32
deriving DecidableEq, Repr

/-- MP_TRIG and running state of one program slot (Table 18-13). -/
structure Trig where
  period : Nat := 0
  skips : Nat := 0
deriving DecidableEq, Repr

/-- Engines, commands, the handler table, management engines. -/
structure Eng where
  cmds : List Cmd := []
  ctxs : Tab (Option Inv) := []
  mgmt : Tab (Option Inv) := []
  /-- Context that issued last, by engine: the rotation starts after it (R148). -/
  issued : Tab Nat := []
  /-- Requests that the directory ports have received (R149; model's own). -/
  dirSeq : Nat := 0
  faults : Tab UnitFault := []
  clusters : Tab UnitFault := []
  icMiss : Tab Nat := []
  mgmtFaults : Tab UnitFault := []
  handlers : Tab HSlot := []
  hstaged : List HStage := []
  treqs : List TReq := []
  progs : Tab (Option Prog) := []
  /-- The older image that a store die's program store keeps of a slot (R237). -/
  olderProgs : Tab (Option Prog) := []
  trigs : Tab Trig := []
  /-- Contexts that wait for a large-response unit, by die, in order of request (R169). -/
  largeQ : Tab (List Nat) := []
deriving DecidableEq, Repr

/-! ## Store dies: directory, map, saggar, ledger (02, 10, 11) -/

/-- A directory entry (Table 2-4) with the key of its key record (Table 2-2). CHAIN is not held: its value is not
specified (R51, R71). -/
structure DirEntry where
  state : Nat := 0
  keyHash : W64 := 0
  length : Nat := 0
  nsid : Nat := 0
  version : Nat := 0
  first : Nat := 0
  cached : Bool := false
  cacheRef : Nat := 0
  handle : W32 := 0
  key : Octets := []
  usermeta : W64 := 0
  /-- Put serial whose parts are the current value, when it came from a pending put (ORIGIN, Table 11-4). -/
  origin : Option Nat := none
  /-- FLOOR of the record that made the current value (R336). -/
  floor : Nat := 0
deriving DecidableEq, Repr

/-- A pending put (Table 6-9, R137). -/
structure Pending where
  putid : Nat
  keyHash : W64
  length : Nat
  nsid : Nat
  usermeta : W64
  key : Octets
  serial : Nat
  first : Nat
  /-- Chunks written so far. -/
  held : List Nat := []
deriving DecidableEq, Repr

/-- Chunk-map entry (Table 10-1). -/
structure MapEntry where
  pca : Nat := 0
  onMedia : Bool := false
  slc : Bool := false
deriving DecidableEq, Repr

/-- The owner of chunks (R335). -/
inductive Owner where
  | object (handle : W32)
  | part (serial : Nat)
  /-- A handler or program image bound through Transom (R330). -/
  | image (table slot : Nat)
  /-- DATA placed for a command that has not ended (R32). -/
  | command (commit : Nat)
  /-- Chunks of a staged value of a command that has not ended (R212). -/
  | staged (commit : Nat)
deriving DecidableEq, Repr

/-- A value extent of the value area (R330), with the state of its two copies. -/
structure Extent where
  ref : Nat
  owner : Owner
  nsid : Nat
  commit : Nat
  chunk0 : Nat
  value : Octets
  homeGood : Bool := true
  mirrorGood : Bool := true
  /-- The owner's value is this one still (R334). -/
  current : Bool := false
  draining : Bool := false
  /-- Chunks that a staged value takes from its base, until the copies made after the apply hold them: they fill no place of
  the saggar (R212, R336). -/
  fromBase : Bool := false
deriving DecidableEq, Repr

/-- A namespace, credential or handler-table change in an effect record, or a put serial's end (Table 11-4). -/
inductive EffItem where
  | dirent (die : Nat) (e : DirEntry)
  | dirfree (handle : W32)
  | value (handle : W32) (ref len : Nat)
  | origin (handle : W32) (serial : Nat)
  | selrow (index : Nat) (reqmask stem : W64) (prio : Nat) (handle : W32) (valid : Bool)
  | runmove (handle : W32) (first : Nat)
  | tableNs (index : Nat) (entry : W32)
  | tableHandler (index : Nat) (slot : HSlot)
  | tableCred (index : Nat) (entry : Cred)
  | tableProg (index : Nat) (p : Prog)
  | tableHkey (k : BitVec 128)
  | retire (place : W32) (block : Nat)
deriving DecidableEq, Repr

/-- An effect record (Table 11-3). -/
structure EffRec where
  commit : Nat
  floor : Nat
  nsid : Nat
  items : List EffItem
deriving DecidableEq, Repr

/-- What a checkpoint or replay of a die yields: the die's own tables and its copy of the package tables (R341, R355). -/
structure Snapshot where
  dir : Tab DirEntry := []
  gens : Tab Nat := []
  map : Tab MapEntry := []
  rows : Tab (BitVec 186) := []
  ns : Tab W32 := []
  handlers : Tab HSlot := []
  creds : Tab Cred := []
  progs : Tab (Option Prog) := []
  hkey : BitVec 128 := 0
  tablesAt : Nat := 0
deriving DecidableEq, Repr

/-- A completed epoch (R341, Table 11-7, EPOCH and FORMAT anchors of Table 11-8). -/
structure Epoch where
  num : Nat
  seqStart : Nat
  jStart : Nat
  commitEnd : Nat
  seqEnd : Nat
  serialNext : Nat
  snap : Snapshot
  /-- The last commit number applied when it began: the journal from JSTART holds every record above it (R414). -/
  lastCommit : Nat := 0
  /-- Physical chunk addresses of its root chunks (Tables 11-7, 11-8). -/
  roots : List Nat := []
deriving DecidableEq, Repr

/-- An image with its anchor (IMAGE or PREDUMP, Table 11-8). -/
structure ImageAnchor where
  die : Nat
  predump : Bool
  epoch : Nat
  commitEnd : Nat
  seqEnd : Nat
  serialNext : Nat
  lastCommit : Nat
  records : List EffRec
  extents : List Extent
  /-- LOGTAIL and JNEXT of the control block, and the origin tail (Tables 11-1, 11-2). -/
  logTail : Nat := 0
  jnext : Nat := 0
  originTail : List (Nat × W32 × Nat) := []
deriving DecidableEq, Repr

/-- Capacity-ledger deltas of one command (R297): per region (by region 0 to 3) chunks, slots, pending puts. -/
structure Delta where
  region : Nat
  chunks : Int
  slots : Int
  puts : Int
deriving DecidableEq, Repr

/-- The capacity ledger of a die (R297, R298) with the stream of OWRITE numbers not yet applied. -/
structure Ledger where
  lcount : Tab Nat := []
  slots : Nat := 0
  puts : Nat := 0
  stream : List (Nat × Option (List Delta)) := []
  ds : Tab Nat := []
  lcap : Tab Nat := []
  /-- Changes of DS and LCAP by commit number, not yet applied in the stream (R299): commit number, region, DS, LCAP. -/
  caps : List (Nat × Nat × Nat × Nat) := []
deriving DecidableEq, Repr

/-! ## Flash (09, 10) -/

/-- A flash channel's controller (Tables 18-16, 16-1). -/
structure Channel where
  bin : Nat := 0
  tbin : Nat := 0
  retired : Bool := false
  trained : Bool := false
  trainEnded : Bool := false
  fails : Nat := 0
  window : Nat := 0
  dies : Nat := 0
  desk : Tab Deskew := []
  ids : Tab Octets := []
  /-- N_Q, BPP and physical page octets of the channel's dies, as their parameter pages state them (R267, R268). -/
  nq : Nat := 0
  bpp : Nat := 0
  ppSize : Nat := 0
  /-- CLKT cycle of each target's last re-centring (R274). -/
  centred : Tab Nat := []
deriving DecidableEq, Repr

/-- Power states of Table 9-6. -/
inductive Power where
  | active | idle | standby
deriving DecidableEq, Repr

/-- One flash die (channel × 16 + position within the store die, channel 0 to 63). -/
structure FlashDie where
  populated : Bool := false
  failed : Bool := false
  power : Power := .active
  /-- A RESET issued after a timeout has not ended (R276). -/
  resetting : Bool := false
  /-- READ UNIQUE ID at bring-up, and as FORMAT recorded it (R275). -/
  unique : Octets := []
  recorded : Octets := []
  /-- Block numbers that carry the factory bad-block mark, as bring-up found them (R291, R453). -/
  marked : List Nat := []
deriving DecidableEq, Repr

/-- One block: key (channel × 16 + position) × 16,384 + block number. -/
structure Block where
  bad : Bool := false
  erases : Nat := 0
  reads : Nat := 0
  /-- The mode of its last erase, SLC or QLC (R279, R307); none before its first. -/
  mode : Option Bool := none
  /-- Erase count when it was opened (Table 9-10). -/
  opened : Nat := 0
deriving DecidableEq, Repr

/-- What a programmed chunk slot is (Table 9-9): a chunk of an object or a system chunk, a filler, P or Q of its stripe, or a
block's summary. The octets of parity and summary slots follow from the other slots (Machine/Page.lean). -/
inductive SlotKind where
  | data | filler | parity (q : Bool) | summary
deriving DecidableEq, Repr

/-- A programmed slot, by physical chunk address (Tables 9-7 to 9-9): the tag's fields, the plain data and the slot key under
which its pages are encrypted (R286, Machine/Page.lean). -/
structure Slot where
  handle : W32
  chunk : Nat
  slc : Bool
  sys : Bool
  keyrec : Bool
  seq : Nat
  nsid : Nat
  /-- Key hash of the object the data belongs to (model's own: MSDISC erases by it, R214). -/
  keyHash : W64
  kslot : Nat
  key : BitVec 512
  data : Octets
  record : Octets
  /-- Physical chunk address that a copy was made from (R305); none for a drain and for system chunks. -/
  src : Option Nat := none
  /-- Its program status passed and it read back (R290). -/
  verified : Bool := false
  /-- It and the parity of its stripe are verified, and what follows from that has been done (R290, R304). -/
  named : Bool := false
  unreadable : Bool := false
  kind : SlotKind := .data
deriving DecidableEq, Repr

/-- The three streams of a region (Table 10-2). -/
inductive Stream where
  | host | copy | cold
  /-- The superblocks that a dump writes from the holdup reserve (R346, R348). -/
  | image
deriving DecidableEq, Repr

/-- A superblock (R288, R308, R324), key region × 1,048,576 + number. -/
structure Super where
  region : Nat
  pos : Nat
  slc : Bool
  stream : Stream
  /-- Block number on each of the 16 channels; absent on an erasure (R320). -/
  blocks : List (Option Nat)
  /-- Data positions filled: stripe × 14 + position. -/
  filled : Nat := 0
  closed : Bool := false
  abandoned : Bool := false
  refresh : Bool := false
  purge : List Nat := []
  closeTime : Nat := 0
  lastPatrol : Nat := 0
  filter : List Nat := []
  /-- A summary is programmed and verified (R344). -/
  summarised : Bool := false
  /-- A superblock in the EZ-64 media format: only read (R361). -/
  ez : Bool := false
  /-- Emptied: erase waits for the rule of R344; the epoch that must complete. -/
  emptied : Option Nat := none
deriving DecidableEq, Repr

/-- WP settings of a region (Tables 10-3 to 10-6). -/
structure RegionCfg where
  reclaim : W32 := 0x101E20#32
  pool : W32 := 0x200008#32
  wear : W32 := 0x0BB81258#32
  patrol : W32 := 0x64801E#32
deriving DecidableEq, Repr

/-- One region of a store die. -/
structure Region where
  cfg : RegionCfg := {}
  live : RegionCfg := {}
  host : Option Nat := none
  copy : Option Nat := none
  cold : Option Nat := none
  /-- The SLC superblock that a dump fills (R346). -/
  image : Option Nat := none
  rotation : Nat := 0
  levelling : Bool := false
  /-- The region keeps its holdup reserve (R348). -/
  reserve : Bool := false
  /-- Target of the SLC buffer in superblocks, as the last opening evaluated it (R292). -/
  slcTarget : Nat := 0
  /-- At media end-of-life (R300). -/
  eol : Bool := false
deriving DecidableEq, Repr

/-- One HBM pseudo-channel (Table 18-18). -/
structure Pseudo where
  retired : Bool := false
  ue : Nat := 0
  window : Nat := 0
  ce : Nat := 0
deriving DecidableEq, Repr

/-- One die-link endpoint (R24, Table 16-1). -/
structure DieLink where
  inService : Bool := false
  retired : Bool := false
  retraining : Bool := false
  retrains : Nat := 0
  window : Nat := 0
  replays : Nat := 0
  cycleReplays : Nat := 0
  /-- CLKT cycle of the last replay: replays in one cycle are those of one link cycle (model's own). -/
  cycleAt : Nat := 0
deriving DecidableEq, Repr

/-- One store die. -/
structure Die where
  online : Bool := false
  cause : Nat := 0
  inReset : Bool := true
  /-- HBM and links trained at BOOT. -/
  stackTrained : Bool := false
  stackLost : Bool := false
  stackCause : Nat := 0
  stackTemp : BitVec 12 := 0
  cascade : Bool := true
  live : Bool := false
  ready : Bool := false
  unformatted : Bool := false
  dumped : Bool := false
  dir : Tab DirEntry := []
  gens : Tab Nat := []
  puts : Tab (Option Pending) := []
  map : Tab MapEntry := []
  cache : Tab Octets := []
  ledger : Ledger := {}
  commitEnd : Nat := 0
  seqNext : Nat := 1
  seqEnd : Nat := 0
  serialNext : Nat := 0
  /-- Put serials below this one have been swept since SERIALNEXT last passed them (R337). -/
  sweepTo : Nat := 2 ^ 24
  jnext : Nat := 0
  log : List EffRec := []
  /-- LOGTAIL as an offset into the effect log's ring (Tables 11-1, 11-2). -/
  logTail : Nat := 0
  extents : List Extent := []
  /-- ORIGIN chunks by number, each with its entries (R337). -/
  originLog : List (Nat × List (Nat × W32 × Nat)) := []
  originNext : Nat := 0
  originTail : List (Nat × W32 × Nat) := []
  journal : List (Nat × List EffRec) := []
  epochs : List Epoch := []
  epochOpen : Option Epoch := none
  epochAt : Nat := 0
  /-- A cause of R341 has arisen since the last epoch began. -/
  epochDue : Bool := false
  images : List ImageAnchor := []
  keys : Tab (BitVec 512) := []
  keySeq : Nat := 0
  /-- Block numbers of the anchor and key blocks, as `pairKey` numbers them (R325, R343). -/
  pairs : Tab Nat := []
  /-- The active anchor pair and the slots filled in it (R343). -/
  anchorPair : Nat := 0
  anchorUsed : Nat := 0
  channels : Tab Channel := []
  flash : Tab FlashDie := []
  blocks : Tab Block := []
  slots : Tab (Option Slot) := []
  supers : Tab (Option Super) := []
  regions : Tab Region := []
  retired : List (W32 × Nat) := []
  ez64 : Bool := false
  pseudo : Tab Pseudo := []
  links : Tab DieLink := []
  /-- EPOCH of the latest grant received (R462). -/
  grant : Nat := 0
deriving DecidableEq, Repr

/-- Package tables held on the media and their state in force (R40, R201). -/
structure Tables where
  ns : Tab W32 := []
  creds : Tab Cred := []
  hkey : BitVec 128 := 0
  /-- Commit number of the last change (R355). -/
  changedAt : Nat := 0
deriving DecidableEq, Repr

/-! ## Selection engine (08) -/

/-- One bank (Table 18-17). -/
structure Bank where
  inService : Bool := false
  retired : Bool := false
  /-- Its entries were placed again at a restart of the selection table (R266). -/
  moved : Bool := false
  reloading : Bool := false
  resets : Nat := 0
  window : Nat := 0
  scrub : Nat := 0
  searches : Nat := 0
  rowchk : Nat := 0
  falsehit : Nat := 0
  scrubfix : Nat := 0
  copyfix : Nat := 0
  hi : W32 := 0
deriving DecidableEq, Repr

/-- A selection change of a command's list (R249): a row written, removed, or every row of a handle removed (R252). -/
inductive SelChange where
  | write (index : Nat) (reqmask stem : W64) (prio : Nat) (handle : W32)
  | remove (index : Nat)
  | removeHandle (handle : W32)
  /-- A row of a record from another executor, found or placed as the list is applied (R250, R419). -/
  | put (reqmask stem : W64) (prio : Nat) (handle : W32)
  | drop (reqmask stem : W64) (handle : W32)
deriving DecidableEq, Repr

/-- The selection engine. Rows are 186-bit values in the layout of Table 8-1 without its reserved bits. -/
structure Sel where
  rows : Tab (BitVec 186) := []
  copies : Tab (BitVec 186) := []
  banks : Tab Bank := []
  complete : Bool := true
  stream : List (Nat × Option (List SelChange)) := []
  /-- The allocator's own pool: rows that hold an entry (R250, R253), whatever an error makes of a row's VALID bit. -/
  used : Tab Bool := []
  reserved : List (Nat × Nat) := []
  /-- Search number of the last search, 12 bits (R260, Table 8-5). -/
  search : Nat := 0
deriving DecidableEq, Repr

/-! ## Arbiters, locks, lease (14, 15) -/

/-- One requester of an arbiter (Table 14-6). -/
structure ArbReq where
  high : Bool := false
  rank : Nat := 0
  quota : Nat := 0
  quotaLive : Nat := 0
  count : Nat := 0
  noRev : Bool := false
  revoked : Nat := 0
  /-- Queued requests by the place code of the originating unit. -/
  pend : List Nat := []
deriving DecidableEq, Repr

/-- One arbiter (R426 to R439). The holder's class at its grant and its originating unit are kept (R437, R436). -/
structure Arb where
  shut : Bool := false
  winMul : Nat := 1
  winMulLive : Nat := 1
  owner : Option Nat := none
  granted : Bool := false
  grantHigh : Bool := false
  grantUnit : Nat := 0
  grantNoRev : Bool := false
  lastLow : Nat := 15
  reqs : Tab ArbReq := []
  revokes : Nat := 0
  qmasks : Nat := 0
deriving DecidableEq, Repr

/-- A requester of a lock: engine place with FABADDR 0, and context (R440, R441). -/
structure LockUser where
  place : Nat
  ctx : Nat
  die : Nat
deriving DecidableEq, Repr

/-- One hardware lock, key: place code with FABADDR 0 (R440). -/
structure HwLock where
  owner : Option LockUser := none
  aband : Bool := false
  waiters : List LockUser := []
deriving DecidableEq, Repr

/-- LEASE_STAT.STATE. -/
inductive LeaseSt where
  | none | held | gap
deriving DecidableEq, Repr

/-- The mastership lease (R459 to R464). -/
structure Lease where
  holder : Nat := 7
  state : LeaseSt := .none
  epoch : Nat := 0
  requests : List Nat := []
  /-- MASTERMOVE has refused the holder's next renewal; the die named, 255 for none. -/
  refuse : Option Nat := none
  named : Nat := 255
  /-- CLKT cycle at which the term granted last ends (R460). -/
  termEnd : Nat := 0
deriving DecidableEq, Repr

/-! ## Fabric (13) -/

/-- Member record (Table 13-3). -/
structure Member where
  uid : BitVec 64
  addr : Nat
  serve : BitVec 16
  flags : Nat
deriving DecidableEq, Repr

/-- A generation (R405). -/
structure Gen where
  num : Nat
  repl : Nat
  members : List Member
deriving DecidableEq, Repr

/-- Fabric record copy (Table 17-11). -/
structure FabRec where
  wseq : Nat
  gen : Option Gen
  voteGen : Nat
  voteCoord : BitVec 64
  addr : Nat
  assigned : Bool
deriving DecidableEq, Repr

/-- A neighbour on one MAC (R402). -/
structure Nbr where
  uid : BitVec 64
  mac : Nat
  eth : BitVec 48
  ip : BitVec 128
  heard : Bool := false
  /-- Its last HELLO listed our unique ID. -/
  hearsUs : Bool := false
  isUp : Bool := false
deriving DecidableEq, Repr

/-- One LSA of the database (R403). -/
structure Lsa where
  origin : BitVec 64
  seq : Nat
  serve : BitVec 16
  flags : Nat
  nbrs : List (BitVec 64 × Nat)
deriving DecidableEq, Repr

/-- One RUN kept for a sender, with the SEQs seen in its two number spaces (R399, R401). -/
structure Run where
  run : BitVec 64
  seen : List Nat := []
  streamSeen : List Nat := []
deriving DecidableEq, Repr

/-- A received RFP message waiting for its row (Table 13-2). -/
structure Rfp where
  type : Nat
  mac : Nat
  eth : BitVec 48
  ip : BitVec 128
  dst : Nat
  srcUid : BitVec 64
  srcAddr : Nat
  seq : Nat
  body : Octets
deriving DecidableEq, Repr

/-- A peer: kept RUNs, newest first, and the ordered streams in both directions (R401). -/
structure Peer where
  uid : BitVec 64
  runs : List Run := []
  txSeq : Nat := 1
  unacked : List (Nat × Nat × Octets) := []
  rxNext : Nat := 1
  rxHeld : List Rfp := []
  expiries : Nat := 0
  /-- The executor's commit number of the last apply mark that the peer has acknowledged: its last applied record of ours (R414). -/
  applied : Nat := 0
deriving DecidableEq, Repr

/-- A proposal of ours (R406, R407). -/
structure Proposal where
  gen : Gen
  votes : List (BitVec 64)
  committed : Bool := false
deriving DecidableEq, Repr

/-- A fabric-record write, and what waits for it (R405, R504). -/
inductive FabPend where
  | vote (gen : Nat) (coord : BitVec 64)
  | adopt (g : Gen)
deriving DecidableEq, Repr

/-- A record placed by REPL and not yet applied (R419, R421). -/
structure Prepared where
  src : BitVec 64
  gen : Nat
  commit : Nat
  bucket : Nat
  nsid : Nat
  items : List EffItem
  record : Octets
  /-- Value octets announced and received; a record without them keeps the object's value. -/
  total : Nat
  value : Octets
  /-- The store die whose home part holds the record. -/
  die : Nat := 0
deriving DecidableEq, Repr

/-- A write at the executor waiting for its replicas (R419): what it applies, and the response that follows. -/
structure WriteWait where
  commit : Nat
  bucket : Nat
  waiting : List (BitVec 64)
  staged : List Staged
  base : Option W32
  vals : List (Nat × Octets)
  segs : List Seg
  erase : List Nat
deriving DecidableEq, Repr

/-- A command forwarded from here (R416), and the response octets arrived. -/
structure Fwd where
  commit : Nat
  uid : BitVec 64
  rsp : Octets := []
  ended : Bool := false
deriving DecidableEq, Repr

/-- The fabric block. -/
structure Fab where
  ctrl : W32 := 0x1D1B0003#32
  ctrlLive : W32 := 0x1D1B0003#32
  run : BitVec 64 := 0
  ownSeq : Nat := 1
  lsaSeq : Nat := 0
  nbrs : List Nbr := []
  lsdb : List Lsa := []
  peers : List Peer := []
  inbox : List Rfp := []
  gen : Option Gen := none
  /-- Generations adopted before the present one since BOOT, newest first: R412 reads who served before. -/
  older : List Gen := []
  standalone : Bool := false
  minority : Bool := false
  assigned : Bool := false
  addr : Nat := 0
  proposal : Option Proposal := none
  formCount : Option Nat := none
  removed : List (BitVec 64) := []
  /-- Record writes due, the first one under way. -/
  pends : List FabPend := []
  rec0 : Option FabRec := none
  rec1 : Option FabRec := none
  prepared : List Prepared := []
  waits : List WriteWait := []
  fwds : List Fwd := []
  fwdIn : List (BitVec 64 × Nat × Octets) := []
  /-- Forwarded writes that have ended here: forwarder, its commit number, ours (R418). -/
  fwdDone : List (BitVec 64 × Nat × Nat) := []
  /-- CLKT cycle of the last change of the link-state database (R406). -/
  dbAt : Nat := 0
  /-- Apply marks owed: replica, commit number, bucket. -/
  marks : List (BitVec 64 × Nat × Nat) := []
  /-- Own commit number at which the present fill began, and the executors still to end their COPY (R414). -/
  fillBase : Nat := 0
  fillFrom : List (BitVec 64) := []
  fillDone : Bool := true
  unresolved : List Nat := []
  counters : Tab Nat := []
  hi : Tab W32 := []
  genHi : W32 := 0
deriving DecidableEq, Repr

/-! ## Test access port (17) -/

/-- The test access port (R505, R506). The boundary register is a list of bits in scan order. -/
structure Tap where
  ir : BitVec 8 := 0x02#8
  boundary : List Bool := []
  /-- What the last scan of the boundary register captured. -/
  captured : List Bool := []
  bypass : Bool := false
  data : W32 := 0
  /-- Balls taken from the functional logic, or floated. -/
  driving : Bool := false
  floating : Bool := false
  pulsing : Bool := false
deriving DecidableEq, Repr

/-- The answer of the last single register access (Table 18-4): model's own. -/
structure Answer where
  status : Nat := 0
  value : W32 := 0
deriving DecidableEq, Repr

/-! ## The state -/

/-- The state of the package. -/
@[ext]
structure State where
  pins : Pins := {}
  mons : Tab DieMon := []
  clock : Clock := {}
  mode : ModeSt := {}
  otp : Otp := {}
  recorder : Recorder := {}
  net : Net := {}
  wot : Wot := {}
  eng : Eng := {}
  dies : Tab Die := []
  tables : Tables := {}
  sel : Sel := {}
  arbs : Tab Arb := []
  locks : Tab HwLock := []
  /-- Units in reset or retirement, by place code with FABADDR 0: their sidebands are asserted (R436). -/
  masked : List Nat := []
  lease : Lease := {}
  fab : Fab := {}
  tap : Tap := {}
  /-- Media profiles placed at BOOT, 512 octets each (R269). -/
  profiles : List Octets := []
  /-- Links of the port die: endpoints 0 to 7. -/
  portLinks : Tab DieLink := []
  /-- Octets of value placed in home parts since the last epoch mark (R341). -/
  placedOctets : Nat := 0
  answer : Answer := {}
  /-- Free values drawn so far: index into the opaque constants of Config (model's own). -/
  draws : Nat := 0
  /-- Commands waiting, first in first out. -/
  pending : List Instr := []
deriving DecidableEq, Repr

/-- Why the machine stops. -/
inductive Fault where
  /-- A command names a unit, context, slot or field value that the package does not have (R8, R10). Raised by every
  meaning with such an operand, through `Out.of`; safe: the hardware has no such event. -/
  | noUnit
deriving DecidableEq, Repr

/-- Why a command has no meaning. -/
inductive Refusal where
  /-- The command is not modelled yet. Raised only by Dispatch.lean; safe. -/
  | notModelled (mnemonic : String)
deriving DecidableEq, Repr

/-- The package right after power-on, held in RESET: every field at its reset value. -/
def State.reset : State := {}

end Sys2Proof.Machine
end

