-- ==== Sys2Proof/Machine/Tab.lean ====
section
/-! DEFINITION. Sparse tables: a list of key and value pairs in one canonical form. An unlisted key reads as the table's
default for that key, and no listed value equals it, so equal tables are equal lists. -/

namespace Sys2Proof.Machine

/-- The value at key `k`, with the table's default `dflt` for an unlisted key. -/
def tabGet {α : Type} (dflt : Nat → α) (t : Tab α) (k : Nat) : α :=
  match t with
  | [] => dflt k
  | (j, v) :: rest => if j = k then v else tabGet dflt rest k

/-- The entries of `t` without key `k`. -/
def tabErase {α : Type} (t : Tab α) (k : Nat) : Tab α :=
  match t with
  | [] => []
  | (j, v) :: rest => if j = k then tabErase rest k else (j, v) :: tabErase rest k

/-- `t` with `v` listed at key `k`, keys kept strictly rising. -/
def tabInsert {α : Type} (t : Tab α) (k : Nat) (v : α) : Tab α :=
  match t with
  | [] => [(k, v)]
  | (j, w) :: rest =>
    if j = k then (k, v) :: rest else if k < j then (k, v) :: (j, w) :: rest else (j, w) :: tabInsert rest k v

/-- `t` with key `k` reading `v`: a value equal to the default leaves no entry. -/
def tabSet {α : Type} [DecidableEq α] (dflt : Nat → α) (t : Tab α) (k : Nat) (v : α) : Tab α :=
  if v = dflt k then tabErase t k else tabInsert t k v

/-- `t` with key `k` changed by `f`. -/
def tabMod {α : Type} [DecidableEq α] (dflt : Nat → α) (t : Tab α) (k : Nat) (f : α → α) : Tab α :=
  tabSet dflt t k (f (tabGet dflt t k))

/-- Every listed entry changed by `f`; an entry that becomes its default is dropped. -/
def tabMapAll {α : Type} [DecidableEq α] (dflt : Nat → α) (f : Nat → α → α) (t : Tab α) : Tab α :=
  match t with
  | [] => []
  | (j, v) :: rest =>
    if f j v = dflt j then tabMapAll dflt f rest else (j, f j v) :: tabMapAll dflt f rest

/-- The canonical form: keys strictly rising above `lo`, no listed value equal to its default. -/
def tabWfFrom {α : Type} [DecidableEq α] (dflt : Nat → α) (lo : Option Nat) (t : Tab α) : Bool :=
  match t with
  | [] => true
  | (j, v) :: rest =>
    (match lo with
      | none => true
      | some l => decide (l < j)) && decide (v ≠ dflt j) && tabWfFrom dflt (some j) rest

/-- The canonical form of a table. -/
def tabWf {α : Type} [DecidableEq α] (dflt : Nat → α) (t : Tab α) : Bool := tabWfFrom dflt none t

/-- Sum over a list. -/
def sumOf {α : Type} (f : α → Nat) (l : List α) : Nat := (l.map f).sum

/-- Numbers 0 to n − 1. -/
abbrev upto (n : Nat) : List Nat := List.range n

/-- The least number below `n` that meets `p`. -/
def leastBelow (n : Nat) (p : Nat → Bool) : Option Nat := (List.range n).find? p

/-- The least number from `a`, looking at no more than `fuel` of them, that meets `p`. -/
def leastFrom (fuel a : Nat) (p : Nat → Bool) : Option Nat :=
  match fuel with
  | 0 => none
  | k + 1 => if p a then some a else leastFrom k (a + 1) p

/-- Insertion of `x` into a list ordered by `key`, after equal keys. -/
def insertBy {α : Type} (key : α → Nat) (x : α) : List α → List α
  | [] => [x]
  | y :: rest => if key x < key y then x :: y :: rest else y :: insertBy key x rest

/-- A list in ascending order of `key`, equal keys in their order. -/
def sortBy {α : Type} (key : α → Nat) (l : List α) : List α := l.foldl (fun acc x => insertBy key x acc) []

/-- The first element that meets `p` changed by `f`. -/
def modFirst {α : Type} (p : α → Bool) (f : α → α) : List α → List α
  | [] => []
  | x :: rest => if p x then f x :: rest else x :: modFirst p f rest

/-- Add without passing `cap`. -/
def satAdd (cap a b : Nat) : Nat := min cap (a + b)

end Sys2Proof.Machine
end

