-- ==== Sys2Proof/Machine/Ops.lean ====
section
/-! DEFINITION. The named operations every family shares: the outcome of a command, the accessors of State's tables, time,
place codes and event sources (00, 16), raising an event (R476 to R485), ALERT_N (R488), the degradation causes and the
read-only sub-state (R448, R449), the package mode (R445, R447), free values. -/

namespace Sys2Proof.Machine

/-- What a command answers. -/
abbrev Out := Host.Outcome State Fault Refusal

/-- A command whose operands name existing units answers `t`; any other stops with `noUnit` (log 1). -/
def outcome (ok : Bool) (t : State) : Out := if ok then .next t else .fault .noUnit

/-- The effect `t` where the command's own conditions hold; else the command is turned away and `s` stands (log 1). -/
def whenDo (cond : Bool) (s t : State) : State := if cond then t else s

/-! ## Tables of State, each with its reset value -/

/-- Store die d, 0 to 3. -/
def State.die (s : State) (d : Nat) : Die := tabGet (fun _ => {}) s.dies d

def State.modDie (s : State) (d : Nat) (f : Die → Die) : State := { s with dies := tabMod (fun _ => {}) s.dies d f }

/-- Supply and sensor registers of die DIE, 0 to 4. -/
def State.mon (s : State) (d : Nat) : DieMon := tabGet (fun _ => {}) s.mons d

def State.modMon (s : State) (d : Nat) (f : DieMon → DieMon) : State := { s with mons := tabMod (fun _ => {}) s.mons d f }

/-- Function n, 0 to 50 (Table 15-6). -/
def State.fn (s : State) (n : Nat) : Fn := tabGet (fun _ => {}) s.mode.fns n

def State.modFn (s : State) (n : Nat) (f : Fn → Fn) : State :=
  { s with mode := { s.mode with fns := tabMod (fun _ => {}) s.mode.fns n f } }

/-- Connection c, 0 to 65,535. -/
def State.conn (s : State) (c : Nat) : Conn := tabGet (fun _ => {}) s.wot.conns c

def State.modConn (s : State) (c : Nat) (f : Conn → Conn) : State :=
  { s with wot := { s.wot with conns := tabMod (fun _ => {}) s.wot.conns c f } }

/-- MAC m, 0 to 127. -/
def State.mac (s : State) (m : Nat) : Mac := tabGet (fun _ => {}) s.net.macs m

def State.modMac (s : State) (m : Nat) (f : Mac → Mac) : State :=
  { s with net := { s.net with macs := tabMod (fun _ => {}) s.net.macs m f } }

/-- Lane l, 0 to 127. -/
def State.lane (s : State) (l : Nat) : Lane := tabGet (fun _ => {}) s.net.lanes l

def State.modLane (s : State) (l : Nat) (f : Lane → Lane) : State :=
  { s with net := { s.net with lanes := tabMod (fun _ => {}) s.net.lanes l f } }

/-- Port group g, 0 to 31. -/
def State.group (s : State) (g : Nat) : Group := tabGet (fun _ => {}) s.net.groups g

def State.modGroup (s : State) (g : Nat) (f : Group → Group) : State :=
  { s with net := { s.net with groups := tabMod (fun _ => {}) s.net.groups g f } }

/-- The invocation that context x holds. -/
def State.inv (s : State) (x : CtxId) : Option Inv :=
  match x with
  | .eng e c => tabGet (fun _ => none) s.eng.ctxs (e * 8 + c)
  | .mgmt d => tabGet (fun _ => none) s.eng.mgmt d

def State.setInv (s : State) (x : CtxId) (v : Option Inv) : State :=
  match x with
  | .eng e c => { s with eng := { s.eng with ctxs := tabSet (fun _ => none) s.eng.ctxs (e * 8 + c) v } }
  | .mgmt d => { s with eng := { s.eng with mgmt := tabSet (fun _ => none) s.eng.mgmt d v } }

def State.modInv (s : State) (x : CtxId) (f : Inv → Inv) : State := s.setInv x ((s.inv x).map f)

/-- The committed command numbered `n`. -/
def State.cmd? (s : State) (n : Nat) : Option Cmd := s.eng.cmds.find? (fun c => c.commit == n)

def State.modCmd (s : State) (n : Nat) (f : Cmd → Cmd) : State :=
  { s with eng := { s.eng with cmds := modFirst (fun c => c.commit == n) f s.eng.cmds } }

def State.dropCmd (s : State) (n : Nat) : State :=
  { s with eng := { s.eng with cmds := s.eng.cmds.filter (fun c => c.commit != n) } }

/-- Fault counts of request engine e, 0 to 511. -/
def State.engFault (s : State) (e : Nat) : UnitFault := tabGet (fun _ => {}) s.eng.faults e

/-- Fault counts of cluster n, 0 to 63, numbered s × 16 + r × 4 + c. -/
def State.clFault (s : State) (n : Nat) : UnitFault := tabGet (fun _ => {}) s.eng.clusters n

/-- Fault counts of the management engine of DIE d, 0 to 4. -/
def State.mgmtFault (s : State) (d : Nat) : UnitFault := tabGet (fun _ => {}) s.eng.mgmtFaults d

/-- Selection bank b, 0 to 15. -/
def State.bank (s : State) (b : Nat) : Bank := tabGet (fun _ => {}) s.sel.banks b

def State.modBank (s : State) (b : Nat) (f : Bank → Bank) : State :=
  { s with sel := { s.sel with banks := tabMod (fun _ => {}) s.sel.banks b f } }

/-- The hardware lock with place code p, FABADDR 0. -/
def State.hwLock (s : State) (p : Nat) : HwLock := tabGet (fun _ => {}) s.locks p

def State.modLock (s : State) (p : Nat) (f : HwLock → HwLock) : State :=
  { s with locks := tabMod (fun _ => {}) s.locks p f }

/-! ## Place codes and numbers (R6 to R11) -/

/-- A place code with FABADDR 0 (Table 0-3). -/
def placeOf (die region cluster cls index : Nat) : Nat :=
  die * 0x20000 + region * 0x8000 + cluster * 0x2000 + cls * 0x100 + index

/-- FABADDR in force (R9). -/
def State.fabaddr (s : State) : Nat := if s.fab.assigned then s.fab.addr else 0

/-- The place code with the FABADDR in force. -/
def State.fullPlace (s : State) (p : Nat) : Nat := s.fabaddr * 0x100000 + p

/-- Place code of global request engine e (R11). -/
def enginePlace (e : Nat) : Nat := placeOf (e / 128 + 1) (e / 32 % 4) (e / 8 % 4) 0x02 (e % 8)

/-- Place code of the flash channel `ch`, 0 to 63, of store die d. -/
def channelPlace (d ch : Nat) : Nat := placeOf (d + 1) (ch / 16) 0 0x04 (ch % 16)

/-- Place code of a flash die: key channel × 16 + position within store die d. -/
def flashPlace (d f : Nat) : Nat := placeOf (d + 1) (f / 256) 0 0x05 (f % 256)

/-- Place code of region r of store die d, as its parity group names it. -/
def regionPlace (d r : Nat) : Nat := placeOf (d + 1) r 0 0x07 0

/-- SOURCE of an event: class and unit number (R477). -/
def srcOf (cls unit : Nat) : Nat := cls * 2048 + unit

/-! ## Time (R469, R492) -/

/-- The time base in ns. -/
def State.now (s : State) : BitVec 64 := (s.clock.tb >>> 32).setWidth 64

/-- The number of the half-open window of `len` CLKT cycles that the present cycle belongs to (R469). -/
def State.windowNo (s : State) (len : Nat) : Nat := s.clock.cycles / len

/-- 1 ms, 10 s, 60 s and 86,400 s in CLKT cycles. -/
def winMs : Nat := 100000
def win10s : Nat := 1000000000
def win60s : Nat := 6000000000
def winDay : Nat := 8640000000000

/-- A count in windows: one more in the present window, a first one in a new window. -/
def countIn (old oldWin win : Nat) : Nat := if oldWin = win then old + 1 else 1

/-- The count that a register shows: 0 once its window has passed. -/
def countShown (old oldWin win : Nat) : Nat := if oldWin = win then old else 0

/-! ## Free values (log 3) -/

/-- The next octets of the random source, and the state with the draw counted. -/
def State.random (s : State) (n : Nat) : Octets × State :=
  ((List.range n).map (fun i => Config.randomOctet (s.draws + i)), { s with draws := s.draws + n })

/-- One value the spec does not state. -/
def State.free (s : State) : BitVec 64 × State := (Config.freeValue s.draws, { s with draws := s.draws + 1 })

/-! ## Events (R476, R477, R547) -/

/-- The port die is held in reset: nothing is recorded or counted (R547). -/
def State.inReset (s : State) : Bool := decide (s.mode.mode = Mode.reset)

/-- A unit raises an event: it waits at the recorder's input. -/
def State.raise (s : State) (code source p0 p1 p2 p3 : Nat) : State :=
  if s.inReset then s else
    { s with recorder := { s.recorder with
        input := s.recorder.input ++
          [{ code, source, time := s.now, p0 := w32 p0, p1 := w32 p1, p2 := w32 p2, p3 := w32 p3 }] } }

/-- An event whose P0 and P1 hold a commit number. -/
def State.raiseAt (s : State) (code source commit p2 p3 : Nat) : State :=
  s.raise code source (commit % 2 ^ 32) (commit / 2 ^ 32) p2 p3

/-- The commit number named by an event that no command carries: the last one assigned (log 10). -/
def State.commitNow (s : State) : Nat := if s.wot.numbered then s.wot.lastCommit else 0

/-! ## ALERT_N (R488) -/

/-- ALERT_N follows the unmasked causes. -/
def State.settleAlert (s : State) : State :=
  { s with pins := { s.pins with alert := s.pins.porst && decide (s.mode.alertCause &&& ~~~s.mode.alertMask ≠ 0) } }

/-- Cause `n` of Table 16-8 becomes `v`. -/
def State.setAlert (s : State) (n : Nat) (v : Bool) : State :=
  let m := BitVec.ofNat 7 (1 <<< n)
  State.settleAlert { s with mode := { s.mode with
    alertCause := if v then s.mode.alertCause ||| m else s.mode.alertCause &&& ~~~m } }

/-! ## Modes and causes (15) -/

/-- Mode codes of Table 15-1. -/
def Mode.code : Mode → Nat
  | .reset => 0 | .boot => 1 | .elect => 2 | .linkup => 3 | .mount => 4 | .service => 5
  | .degraded => 6 | .drain => 7 | .reprogram => 8 | .format => 9 | .imports => 10 | .holdup => 11

/-- Admission of the management class (Table 15-1): 2 Open, 1 Kept, 0 None. -/
def Mode.mgmtOpen : Mode → Nat
  | .linkup | .mount | .service | .degraded | .drain | .reprogram | .imports => 2
  | .reset | .boot | .elect | .format | .holdup => 0

/-- Admission of the client class (Table 15-1): 2 Open, 1 Kept, 0 None. -/
def Mode.clientOpen : Mode → Nat
  | .service | .degraded | .reprogram => 2
  | .drain => 1
  | .reset | .boot | .elect | .linkup | .mount | .format | .imports | .holdup => 0

/-- Serving modes: SERVICE, DEGRADED, DRAIN, REPROGRAM. -/
def Mode.serving : Mode → Bool
  | .service | .degraded | .drain | .reprogram => true
  | .reset | .boot | .elect | .linkup | .mount | .format | .imports | .holdup => false

/-- A bit of PKG_DEGR (Table 15-3). -/
def State.cause (s : State) (n : Nat) : Bool := s.mode.degr.getLsbD n

/-- The read-only sub-state: MINORITY, EOL or NOGEN (R449). -/
def State.readOnly (s : State) : Bool := s.cause 4 || s.cause 5 || s.cause 6

/-- The package mode becomes `m`; MODE_CHANGE is raised with the commit number at which it does (R445). Leaving RESET
the mode is BOOT before the event is raised, so the event is recorded. -/
def State.toModeAt (s : State) (m : Mode) (commit : Nat) : State :=
  let old := s.mode.mode
  if old = m then s else
    let t : State := { s with mode := { s.mode with mode := m } }
    t.raiseAt 0x0010 (srcOf 0x16 0) commit (old.code + 16 * m.code) s.mode.degr.toNat

def State.toMode (s : State) (m : Mode) : State := s.toModeAt m s.commitNow

/-- SERVICE and DEGRADED follow the causes (R448). -/
def State.settleMode (s : State) (commit : Nat) : State :=
  match s.mode.mode with
  | .service => if s.mode.degr = 0 then s else s.toModeAt .degraded commit
  | .degraded => if s.mode.degr = 0 then s.toModeAt .service commit else s
  | _ => s

/-- Cause `n` becomes `v` at commit number `commit`: DEGR_CHANGE, the alerts, and the mode (R448, R449, R488). -/
def State.setCauseAt (s : State) (n : Nat) (v : Bool) (commit : Nat) : State :=
  if s.cause n = v then s else
    let before := s.mode.degr
    let m := BitVec.ofNat 8 (1 <<< n)
    let after := if v then before ||| m else before &&& ~~~m
    let t : State := { s with mode := { s.mode with degr := after } }
    let t := t.raiseAt 0x0011 (srcOf 0x16 0) commit before.toNat after.toNat
    let t := if v then t.setAlert 3 true else t
    let t := if t.readOnly && !s.readOnly then t.setAlert 4 true else t
    t.settleMode commit

def State.setCause (s : State) (n : Nat) (v : Bool) : State := s.setCauseAt n v s.commitNow

/-- The mode with which a serving package leaves MOUNT, DRAIN or REPROGRAM: by the causes. -/
def State.servingMode (s : State) : Mode := if s.mode.degr = 0 then .service else .degraded

/-- Function n reads STOPPED (R457). -/
def State.fnStopped (s : State) (n : Nat) : Bool := decide ((s.fn n).state = FnState.stopped)

/-- The region of a store die as a global region number (R11). -/
def globalRegion (d r : Nat) : Nat := d * 4 + r

/-- A counter of a table of 64-bit counters, wrapping (R390). -/
def bump (t : Tab Nat) (i n : Nat) : Tab Nat := tabMod (fun _ => 0) t i (fun v => (v + n) % 2 ^ 64)

def State.bumpMac (s : State) (m i n : Nat) : State := s.modMac m (fun x => { x with counters := bump x.counters i n })

def State.bumpWot (s : State) (i : Nat) : State := { s with wot := { s.wot with counters := bump s.wot.counters i 1 } }

def State.bumpFab (s : State) (i : Nat) : State := { s with fab := { s.fab with counters := bump s.fab.counters i 1 } }

end Sys2Proof.Machine
end

