-- ==== Sys2Proof/WellFormed.lean ====
section
/-! DEFINITION. Which commands are well formed: every operand names a unit, context, slot or number that the package has
(R5, R8, R10, R11). exec stops with `noUnit` on the others, and every meaning uses the checks of this file. -/

namespace Sys2Proof

/-- Store die 0 to 3. -/
def Wf.die (d : Nat) : Bool := decide (d < 4)
/-- DIE 0 to 4: the port die and the four store dies (Table 0-3). -/
def Wf.die5 (d : Nat) : Bool := decide (d < 5)
/-- Region 0 to 3 of a store die. -/
def Wf.region (r : Nat) : Bool := decide (r < 4)
def Wf.mac (m : Nat) : Bool := decide (m < 128)
def Wf.prio (p : Nat) : Bool := decide (p < 8)
def Wf.lane (l : Nat) : Bool := decide (l < 128)
def Wf.conn (c : Nat) : Bool := decide (c < 65536)
/-- TAG has 16 bits (Table 3-7). -/
def Wf.tag (t : Nat) : Bool := decide (t < 65536)
/-- Global request engine (R11). -/
def Wf.engine (e : Nat) : Bool := decide (e < 512)
/-- One of the eight contexts of an engine (R147). -/
def Wf.ctx (c : Nat) : Bool := decide (c < 8)
def Wf.ctxId : CtxId → Bool
  | .eng e c => Wf.engine e && Wf.ctx c
  | .mgmt d => Wf.die5 d
/-- Cluster s × 16 + r × 4 + c (R477). -/
def Wf.cluster (n : Nat) : Bool := decide (n < 64)
/-- Global selection bank (R11). -/
def Wf.bank (b : Nat) : Bool := decide (b < 16)
/-- HBM pseudo-channel 0 to 31 (Table 0-4). -/
def Wf.pch (p : Nat) : Bool := decide (p < 32)
/-- Die-link endpoint: 0 to 7 on the port die, 8 + 2s + k endpoint k of store die s (Table 1-3). -/
def Wf.link (n : Nat) : Bool := decide (n < 16)
/-- Flash channel 0 to 63 of a store die. -/
def Wf.channel (c : Nat) : Bool := decide (c < 64)
/-- Target (chip enable) of a channel. -/
def Wf.target (t : Nat) : Bool := decide (t < 4)
/-- Deskew readings of a training: one of the 72 pairs of a channel, a whole-UI shift of 0 to 3, 128 fine taps (R273). -/
def Wf.desk (l : List Deskew) : Bool := l.all (fun k => decide (k.key < 72) && decide (k.ui < 4) && decide (k.fine < 128))
/-- Flash die of a store die: channel × 16 + position. -/
def Wf.flash (f : Nat) : Bool := decide (f < 1024)
/-- Block of a store die: flash die × 16,384 + block number. -/
def Wf.block (b : Nat) : Bool := decide (b < 1024 * 16384)
/-- Physical chunk address, 36 bits (Table 10-1). -/
def Wf.pca (p : Nat) : Bool := decide (p < 2 ^ 36)
/-- Media slot 0 to 7 of a context (R162). -/
def Wf.mediaSlot (k : Nat) : Bool := decide (k < 8)
/-- Operator program slot (R519). -/
def Wf.progSlot (k : Nat) : Bool := decide (32 ≤ k) && decide (k < 64)
/-- Function of Table 15-6. -/
def Wf.fn (n : Nat) : Bool := decide (n < 51)
/-- A commit number, 64 bits (R54). -/
def Wf.commit (n : Nat) : Bool := decide (n < 2 ^ 64)
def Wf.bucket (b : Nat) : Bool := decide (b < 65536)
/-- A recorder position (R476). -/
def Wf.index (i : Nat) : Bool := decide (i < 65536)
/-- Recorder failure cause 1 to 3 as an error raises it (Table 16-10), stack-loss cause 1 to 3 (Table 16-7). -/
def Wf.cause (c : Nat) : Bool := decide (1 ≤ c) && decide (c ≤ 3)
/-- Lane fault cause: 1 loss of block lock, 2 uncorrectable FEC codewords (Table 16-7). -/
def Wf.laneCause (c : Nat) : Bool := decide (c = 1) || decide (c = 2)
/-- Register offset, 16 bits (R507). -/
def Wf.offset (o : Nat) : Bool := decide (o < 65536)
/-- Any code of one octet. -/
def Wf.small (c : Nat) : Bool := decide (c < 256)
/-- DIE of a place code, REGION, CLUSTER, CLASS and INDEX (Table 0-3). -/
def Wf.placeDie (p : Nat) : Nat := p / 0x20000 % 8
def Wf.placeRegion (p : Nat) : Nat := p / 0x8000 % 4
def Wf.placeCluster (p : Nat) : Nat := p / 0x2000 % 4
def Wf.placeClass (p : Nat) : Nat := p / 0x100 % 32
def Wf.placeIndex (p : Nat) : Nat := p % 256

/-- A place code with FABADDR 0 that names a unit (R7, R8, Table 0-4). -/
def Wf.place (p : Nat) : Bool :=
  let d := Wf.placeDie p
  let r := Wf.placeRegion p
  let c := Wf.placeCluster p
  let i := Wf.placeIndex p
  let port := decide (d = 0)
  let store := decide (1 ≤ d ∧ d ≤ 4)
  let flat := decide (r = 0 ∧ c = 0)
  decide (p < 0x100000) &&
  match Wf.placeClass p with
  | 0x00 => port && flat && decide (i = 0)
  | 0x01 | 0x10 | 0x1A | 0x1C => decide (d ≤ 4) && flat && decide (i = 0)
  | 0x02 => store && decide (i < 8)
  | 0x03 => store && decide (i = 0)
  | 0x04 | 0x0B => store && decide (c = 0 ∧ i < 16)
  | 0x05 => store && decide (c = 0)
  | 0x06 | 0x07 | 0x0E => store && decide (c = 0 ∧ i = 0)
  | 0x08 | 0x0C => store && flat && decide (i < 32)
  | 0x09 => store && flat && decide (i = 0)
  | 0x0A | 0x0D => flat && ((port && decide (i < 8)) || (store && decide (i < 2)))
  | 0x0F => (port && flat) || (store && decide (c = 0))
  | 0x11 | 0x13 => port && flat && decide (i < 128)
  | 0x12 => port && flat && decide (i < 32)
  | 0x14 | 0x15 | 0x16 | 0x17 | 0x18 | 0x19 | 0x1B | 0x1D => port && flat && decide (i = 0)
  | _ => false

/-- The place code of an arbiter: classes 0x0B to 0x0E. -/
def Wf.arb (p : Nat) : Bool :=
  Wf.place p && decide (0x0B ≤ Wf.placeClass p ∧ Wf.placeClass p ≤ 0x0E)

/-- Requesters of an arbiter, by class (Table 14-2, R525). -/
def Wf.requesters (cls : Nat) : Nat :=
  match cls with
  | 0x0B => 7
  | 0x0C => 8
  | 0x0D => 4
  | 0x0E => 4
  | _ => 0

/-- Requester k of the arbiter with place code p. -/
def Wf.requester (p k : Nat) : Bool := decide (k < Wf.requesters (Wf.placeClass p))

/-- The place code of a hardware lock: class 0x0F. -/
def Wf.lock (p : Nat) : Bool := Wf.place p && decide (Wf.placeClass p = 0x0F)

/-- A well-formed command: all its operands name what the package has. -/
def Wf.instr : Instr → Bool
  | .powerOn => true
  | .porstN _ => true
  | .wrstN _ => true
  | .pfailN _ => true
  | .supplyTrip die _ => Wf.die5 die
  | .dumpDone die => Wf.die die
  | .holdupRestart => true
  | .resetDumpDone die => Wf.die die
  | .resetRelease => true
  | .bootEnd _ => true
  | .leaseRequest die => Wf.die die
  | .electGrant => true
  | .electTimeout => true
  | .leaseRenewal => true
  | .leaseTermEnd => true
  | .leaseGapEnd => true
  | .nomasterTimeout => true
  | .laneTrainingDone mac _ => Wf.mac mac
  | .channelTrainingDone die ch _ _ desk => Wf.die die && Wf.channel ch && Wf.desk desk
  | .mountDieReady die _ => Wf.die die
  | .nogenTimeout => true
  | .formatComplete => true
  | .refclkLoss => true
  | .refclkRelock => true
  | .tempSample die _ => Wf.die5 die
  | .frameReceive mac _ _ => Wf.mac mac
  | .pauseRefresh mac prio => Wf.mac mac && Wf.prio prio
  | .pauseExpiry mac prio => Wf.mac mac && Wf.prio prio
  | .ringTake => true
  | .txFrameStart mac => Wf.mac mac
  | .linkUp mac => Wf.mac mac
  | .linkDown mac => Wf.mac mac
  | .laneFault lane cause => Wf.lane lane && Wf.laneCause cause
  | .init => true
  | .pad => true
  | .req => true
  | .ack => true
  | .window => true
  | .ping => true
  | .close => true
  | .reset => true
  | .ackTimer conn => Wf.conn conn
  | .retxTimeout conn => Wf.conn conn
  | .idleTimeout conn => Wf.conn conn
  | .openingTimeout conn => Wf.conn conn
  | .quietEnd conn => Wf.conn conn
  | .limitRaise => true
  | .responseSend conn tag => Wf.conn conn && Wf.tag tag
  | .gateLeave => true
  | .reqdataGrant die => Wf.die die
  | .saggarCopyDone commit => Wf.commit commit
  | .nohandlerCommand commit => Wf.commit commit
  | .get commit ctx => Wf.commit commit && Wf.ctx ctx
  | .getsel commit ctx => Wf.commit commit && Wf.ctx ctx
  | .put commit ctx => Wf.commit commit && Wf.ctx ctx
  | .delete commit ctx => Wf.commit commit && Wf.ctx ctx
  | .sdiscard commit ctx => Wf.commit commit && Wf.ctx ctx
  | .mpbegin commit ctx => Wf.commit commit && Wf.ctx ctx
  | .mppart commit ctx => Wf.commit commit && Wf.ctx ctx
  | .mpcommit commit ctx => Wf.commit commit && Wf.ctx ctx
  | .mpcancel commit ctx => Wf.commit commit && Wf.ctx ctx
  | .scan commit ctx => Wf.commit commit && Wf.ctx ctx
  | .flush commit ctx => Wf.commit commit && Wf.ctx ctx
  | .fence commit ctx => Wf.commit commit && Wf.ctx ctx
  | .abort => true
  | .stat commit ctx => Wf.commit commit && Wf.ctx ctx
  | .selput commit ctx => Wf.commit commit && Wf.ctx ctx
  | .seldel commit ctx => Wf.commit commit && Wf.ctx ctx
  | .operatorCommand commit ctx => Wf.commit commit && Wf.ctx ctx
  | .add x => Wf.ctxId x
  | .sub x => Wf.ctxId x
  | .and x => Wf.ctxId x
  | .or x => Wf.ctxId x
  | .xor x => Wf.ctxId x
  | .shl x => Wf.ctxId x
  | .shr x => Wf.ctxId x
  | .sar x => Wf.ctxId x
  | .mul x => Wf.ctxId x
  | .divu x => Wf.ctxId x
  | .remu x => Wf.ctxId x
  | .ext x => Wf.ctxId x
  | .dep x => Wf.ctxId x
  | .addi x => Wf.ctxId x
  | .andi x => Wf.ctxId x
  | .ori x => Wf.ctxId x
  | .xori x => Wf.ctxId x
  | .shli x => Wf.ctxId x
  | .shri x => Wf.ctxId x
  | .sari x => Wf.ctxId x
  | .li x => Wf.ctxId x
  | .lsh x => Wf.ctxId x
  | .set x => Wf.ctxId x
  | .beq x => Wf.ctxId x
  | .bne x => Wf.ctxId x
  | .bltu x => Wf.ctxId x
  | .bgeu x => Wf.ctxId x
  | .blt x => Wf.ctxId x
  | .bge x => Wf.ctxId x
  | .bz x => Wf.ctxId x
  | .bnz x => Wf.ctxId x
  | .jmp x => Wf.ctxId x
  | .jr x => Wf.ctxId x
  | .call x => Wf.ctxId x
  | .ld8 x => Wf.ctxId x
  | .ld16 x => Wf.ctxId x
  | .ld32 x => Wf.ctxId x
  | .ld64 x => Wf.ctxId x
  | .st8 x => Wf.ctxId x
  | .st16 x => Wf.ctxId x
  | .st32 x => Wf.ctxId x
  | .st64 x => Wf.ctxId x
  | .wl8 x => Wf.ctxId x
  | .wl16 x => Wf.ctxId x
  | .wl32 x => Wf.ctxId x
  | .wl64 x => Wf.ctxId x
  | .rs8 x => Wf.ctxId x
  | .rs16 x => Wf.ctxId x
  | .rs32 x => Wf.ctxId x
  | .rs64 x => Wf.ctxId x
  | .keycmpOrder x => Wf.ctxId x
  | .keycmpPrefix x => Wf.ctxId x
  | .keycpy x => Wf.ctxId x
  | .crc x => Wf.ctxId x
  | .hkey x => Wf.ctxId x
  | .dlookHash x => Wf.ctxId x
  | .dlookSucc x => Wf.ctxId x
  | .dlookPend x => Wf.ctxId x
  | .dins x => Wf.ctxId x
  | .dupd x => Wf.ctxId x
  | .ddel x => Wf.ctxId x
  | .sel x => Wf.ctxId x
  | .selnext x => Wf.ctxId x
  | .sadd x => Wf.ctxId x
  | .sdel x => Wf.ctxId x
  | .mreadValue x => Wf.ctxId x
  | .mreadKeyrec x => Wf.ctxId x
  | .mreadFill x => Wf.ctxId x
  | .mwriteStaged x => Wf.ctxId x
  | .mwritePart x => Wf.ctxId x
  | .mdisc x => Wf.ctxId x
  | .msdisc x => Wf.ctxId x
  | .emit x => Wf.ctxId x
  | .emitd x => Wf.ctxId x
  | .fenceConn x => Wf.ctxId x
  | .fencePkg x => Wf.ctxId x
  | .fenceFlushns x => Wf.ctxId x
  | .fenceFlushall x => Wf.ctxId x
  | .lock x => Wf.ctxId x
  | .unlk x => Wf.ctxId x
  | .wait x => Wf.ctxId x
  | .waitSaggar x => Wf.ctxId x
  | .done x => Wf.ctxId x
  | .fail x => Wf.ctxId x
  | .yield x => Wf.ctxId x
  | .log x => Wf.ctxId x
  | .mfs x => Wf.ctxId x
  | .mts x => Wf.ctxId x
  | .rdtime x => Wf.ctxId x
  | .rdcyc x => Wf.ctxId x
  | .rdreg x => Wf.ctxId x
  | .wrreg x => Wf.ctxId x
  | .directoryReply x => Wf.ctxId x
  | .succAnswer x => Wf.ctxId x
  | .ledgerRoomReady x => Wf.ctxId x
  | .allocReserve x => Wf.ctxId x
  | .mediaResult x slot => Wf.ctxId x && Wf.mediaSlot slot
  | .lockGrant place => Wf.lock place
  | .fenceRelease x => Wf.ctxId x
  | .largeUnitGrant die => Wf.die die
  | .icacheFillDone x => Wf.ctxId x
  | .spillAccessDone x => Wf.ctxId x
  | .windowLoadDone x => Wf.ctxId x
  | .regAccessDone x => Wf.ctxId x
  | .waitlimit x => Wf.ctxId x
  | .selSearchResult x _ => Wf.ctxId x
  | .allocApply => true
  | .ledgerApply die => Wf.die die
  | .selScrub bank _ _ => Wf.bank bank
  | .engineParityError engine => Wf.engine engine
  | .clusterEccError cluster _ => Wf.cluster cluster
  | .mgmtEngineError die => Wf.die5 die
  | .hbmUe die pch _ => Wf.die die && Wf.pch pch
  | .stackLoss die cause => Wf.die die && Wf.cause cause
  | .dlinkCrcError link => Wf.link link
  | .portDieUe _ => true
  | .recorderUe cause index => Wf.cause cause && Wf.index index
  | .recorderScrub _ _ => true
  | .eventInput => true
  | .eventWrite => true
  | .lunTimeout die flash => Wf.die die && Wf.flash flash
  | .flashReadDone die pca _ _ => Wf.die die && Wf.pca pca
  | .chunkVerified die pca _ => Wf.die die && Wf.pca pca
  | .eraseDone die block _ => Wf.die die && Wf.block block
  | .dieStateTick die => Wf.die die
  | .recentre die ch target _ desk => Wf.die die && Wf.channel ch && Wf.target target && Wf.desk desk
  | .valueDrain die _ _ => Wf.die die
  | .journalDrain die => Wf.die die
  | .epochBegin die => Wf.die die
  | .epochComplete die => Wf.die die
  | .reclaimPass die region => Wf.die die && Wf.region region
  | .fold die region => Wf.die die && Wf.region region
  | .staticLevelling die region => Wf.die die && Wf.region region
  | .patrolRead die _ _ => Wf.die die
  | .refresh die region => Wf.die die && Wf.region region
  | .rebuild die region => Wf.die die && Wf.region region
  | .mapCompaction die => Wf.die die
  | .serialSweep die => Wf.die die
  | .arbRequest arb req unit => Wf.arb arb && Wf.requester arb req && Wf.place unit
  | .arbDecision arb => Wf.arb arb
  | .arbWindowStart arb => Wf.arb arb
  | .fnStopComplete fn => Wf.fn fn
  | .fnRestartComplete fn => Wf.fn fn
  | .mpTrigRun die slot => Wf.die5 die && Wf.progSlot slot
  | .resetDelayEnd => true
  | .rread => true
  | .rwrite => true
  | .tread => true
  | .twrite => true
  | .hbind => true
  | .hempty => true
  | .hread => true
  | .pbind => true
  | .prun => true
  | .modesetReset => true
  | .modesetService => true
  | .modesetDrain => true
  | .modesetFormat => true
  | .otpset => true
  | .mastermove => true
  | .kserase => true
  | .fabform => true
  | .fabremove => true
  | .fnCtrlEnable fn _ => Wf.fn fn
  | .freeze _ => true
  | .clear _ => true
  | .tsqPop mac _ => Wf.mac mac
  | .lockForce die _ => Wf.die5 die
  | .shut arb _ => Wf.arb arb
  | .tbStepHi _ => true
  | .masterpref _ => true
  | .importdis _ => true
  | .rcCounterRead _ off => Wf.offset off
  | .registerWrite _ off _ => Wf.offset off
  | .helloTimer mac => Wf.mac mac
  | .neighborDown _ mac => Wf.mac mac
  | .lsaTimer => true
  | .proposeStart => true
  | .proposeResend => true
  | .hello => true
  | .lsa => true
  | .propose => true
  | .vote => true
  | .commit => true
  | .stemResolve bucket => Wf.bucket bucket
  | .fwd => true
  | .fwdrsp => true
  | .repl => true
  | .replack => true
  | .applyMark _ => true
  | .copy => true
  | .sync => true
  | .rfpAck => true
  | .rfpRetxTimeout _ => true
  | .extest _ _ => true
  | .samplePreload _ _ => true
  | .idcode => true
  | .highz => true
  | .clamp _ => true
  | .extestPulse _ _ => true
  | .extestTrain _ _ => true
  | .bootstat => true
  | .bypass _ => true
  | .trstN _ => true
  | .abortReply commit ctx => Wf.commit commit && Wf.ctx ctx
  | .nocode => true
  | .linkupTimeout => true
  | .selRestored bank => Wf.bank bank
  | .cascadeConnectionLost die => Wf.die die
  | .dlinkRetrainEnd link _ => Wf.link link
  | .arbGrantEnd arb => Wf.arb arb
  | .fabricRecordWritten => true
  | .slcProgramsEnd => true
  | .sramTestDone _ => true
  | .sdiscardPurge die => Wf.die die
  | .ptpMessage => true
  | .ptpSyncTimeout => true
  | .lowRegisterRead _ off => Wf.offset off

end Sys2Proof
end

