-- ==== Sys2Proof/Machine/Locks.lean ====
section
/-! DEFINITION. Hardware locks (R440 to R444): request, release, release as abandoned, leaving the queue. LOCK and UNLK use
these from Machine/NirmSync.lean, LOCK_GRANT passes the lock. -/

namespace Sys2Proof.Machine

/-- Place code of lock n of a lock table: DIE 0 the port die with locks 0 to 255, DIE 1 to 4 a store die with 0 to 1,023,
bank × 256 + index (Table 0-4). -/
def lockPlace (die n : Nat) : Nat := placeOf die (n / 256) 0 0x0F (n % 256)

/-- The place code that names the owner of a lock for a context (R440): its engine with FABADDR 0, or the management
engine, and the context number. -/
def lockUser (x : CtxId) : LockUser :=
  match x with
  | .eng e c => { place := enginePlace e, ctx := c, die := e / 128 + 1 }
  | .mgmt d => { place := placeOf d 0 0 0x10 0, ctx := 0, die := d }

/-- The context that a lock user is. -/
def LockUser.ctxId (u : LockUser) : CtxId :=
  if Wf.placeClass u.place = 0x10 then .mgmt (Wf.placeDie u.place)
  else .eng ((Wf.placeDie u.place - 1) * 128 + Wf.placeRegion u.place * 32 + Wf.placeCluster u.place * 8 +
    Wf.placeIndex u.place) u.ctx

/-- A request joins the queue of the lock with place code p (R441). -/
def State.lockRequest (s : State) (p : Nat) (u : LockUser) : State :=
  s.modLock p (fun l => { l with waiters := l.waiters ++ [u] })

/-- A release by UNLK: ABAND stays as it stands (R442). -/
def State.lockRelease (s : State) (p : Nat) : State := s.modLock p (fun l => { l with owner := none })

/-- A release as abandoned: ABAND is set; a FREE lock is left unchanged (R442, Table 14-10). -/
def State.lockAbandon (s : State) (p : Nat) : State :=
  s.modLock p (fun l => match l.owner with
    | none => l
    | some _ => { l with owner := none, aband := true })

/-- The user leaves every queue it waits in (R441). -/
def State.lockLeave (s : State) (gone : LockUser → Bool) : State :=
  { s with locks := tabMapAll (fun _ => {}) (fun _ l => { l with waiters := l.waiters.filter (fun u => !gone u) }) s.locks }

/-- Every lock whose owner meets `lost` is released as abandoned; waiters that meet it leave first (R442, R443). -/
def State.locksAbandonWhere (s : State) (lost : LockUser → Bool) : State :=
  let t := s.lockLeave lost
  { t with locks := tabMapAll (fun _ => {}) (fun _ l => match l.owner with
      | some u => if lost u then { l with owner := none, aband := true } else l
      | none => l) t.locks }

/-- The locks that user u holds. -/
def State.locksOf (s : State) (u : LockUser) : List Nat :=
  (s.locks.filter (fun e => e.2.owner == some u)).map (fun e => e.1)

/-- The locks that user u holds are released as abandoned and it leaves every queue (R179, R442). -/
def State.abandonUser (s : State) (u : LockUser) : State := s.locksAbandonWhere (fun v => v == u)

/-- LOCK_STATE of a lock (Table 14-8). -/
def lockStateReg (l : HwLock) : Nat :=
  (match l.owner with
    | none => 0
    | some u => 1 + 4 * u.ctx) + 2 * bit01 l.aband + 32 * l.waiters.length

/-- LOCK_OWNER of a lock (Table 14-9). -/
def lockOwnerReg (l : HwLock) : Nat :=
  match l.owner with
  | none => 0xFFFFFFFF
  | some u => u.place

end Sys2Proof.Machine
end

