-- ==== Sys2Proof/Machine/Crypto.lean ====
section
/-! DEFINITION. The published algorithms the manual names: CRC-32C (R199), the Ethernet FCS (R370), SHA-256 with HMAC and
HKDF (R83, R84, R398), AES-256 and the GCM tag over additional data (R85), SipHash-2-4 (R200), the Internet checksum. -/

namespace Sys2Proof.Machine

/-! ## CRC -/

/-- One octet of a reflected CRC-32 with the reversed polynomial `poly`. -/
def crcStep (poly state : BitVec 32) (b : Byte) : BitVec 32 :=
  (List.range 8).foldl (fun c _ => if c.getLsbD 0 then (c >>> 1) ^^^ poly else c >>> 1) (state ^^^ b.setWidth 32)

/-- CRC-32C continued from the CRC `crc` of what came before (R199): Castagnoli, reversed 0x82F63B78. -/
def crc32cFrom (crc : BitVec 32) (o : Octets) : BitVec 32 := ~~~(o.foldl (crcStep 0x82F63B78#32) (~~~crc))

def crc32c (o : Octets) : BitVec 32 := crc32cFrom 0#32 o

/-- The IEEE 802.3 frame check sequence, reversed 0xEDB88320. -/
def fcs32 (o : Octets) : BitVec 32 := ~~~(o.foldl (crcStep 0xEDB88320#32) 0xFFFFFFFF#32)

/-- The one's complement sum of 16-bit words of the Internet checksum; an odd last octet is the high half of a word. -/
def inetSum : Octets → Nat
  | [] => 0
  | [a] => a.toNat * 256
  | a :: b :: rest => a.toNat * 256 + b.toNat + inetSum rest

/-- Folding of the carries of a one's complement sum into 16 bits. -/
def inetFold (n : Nat) : Nat :=
  let a := n / 65536 + n % 65536
  let b := a / 65536 + a % 65536
  b / 65536 + b % 65536

/-- The Internet checksum of `o`. -/
def inetChecksum (o : Octets) : Nat := 65535 - inetFold (inetSum o)

/-! ## SHA-256, HMAC, HKDF (FIPS 180-4, RFC 2104, RFC 5869) -/

def shaInit : List (BitVec 32) :=
  [0x6a09e667#32, 0xbb67ae85#32, 0x3c6ef372#32, 0xa54ff53a#32] ++
  [0x510e527f#32, 0x9b05688c#32, 0x1f83d9ab#32, 0x5be0cd19#32]

def shaK : List (BitVec 32) :=
  [0x428a2f98#32, 0x71374491#32, 0xb5c0fbcf#32, 0xe9b5dba5#32, 0x3956c25b#32, 0x59f111f1#32, 0x923f82a4#32, 0xab1c5ed5#32] ++
  [0xd807aa98#32, 0x12835b01#32, 0x243185be#32, 0x550c7dc3#32, 0x72be5d74#32, 0x80deb1fe#32, 0x9bdc06a7#32, 0xc19bf174#32] ++
  [0xe49b69c1#32, 0xefbe4786#32, 0x0fc19dc6#32, 0x240ca1cc#32, 0x2de92c6f#32, 0x4a7484aa#32, 0x5cb0a9dc#32, 0x76f988da#32] ++
  [0x983e5152#32, 0xa831c66d#32, 0xb00327c8#32, 0xbf597fc7#32, 0xc6e00bf3#32, 0xd5a79147#32, 0x06ca6351#32, 0x14292967#32] ++
  [0x27b70a85#32, 0x2e1b2138#32, 0x4d2c6dfc#32, 0x53380d13#32, 0x650a7354#32, 0x766a0abb#32, 0x81c2c92e#32, 0x92722c85#32] ++
  [0xa2bfe8a1#32, 0xa81a664b#32, 0xc24b8b70#32, 0xc76c51a3#32, 0xd192e819#32, 0xd6990624#32, 0xf40e3585#32, 0x106aa070#32] ++
  [0x19a4c116#32, 0x1e376c08#32, 0x2748774c#32, 0x34b0bcb5#32, 0x391c0cb3#32, 0x4ed8aa4a#32, 0x5b9cca4f#32, 0x682e6ff3#32] ++
  [0x748f82ee#32, 0x78a5636f#32, 0x84c87814#32, 0x8cc70208#32, 0x90befffa#32, 0xa4506ceb#32, 0xbef9a3f7#32, 0xc67178f2#32]

def shaSmall0 (x : BitVec 32) : BitVec 32 := x.rotateRight 7 ^^^ x.rotateRight 18 ^^^ (x >>> 3)
def shaSmall1 (x : BitVec 32) : BitVec 32 := x.rotateRight 17 ^^^ x.rotateRight 19 ^^^ (x >>> 10)
def shaBig0 (x : BitVec 32) : BitVec 32 := x.rotateRight 2 ^^^ x.rotateRight 13 ^^^ x.rotateRight 22
def shaBig1 (x : BitVec 32) : BitVec 32 := x.rotateRight 6 ^^^ x.rotateRight 11 ^^^ x.rotateRight 25

/-- The message schedule, newest word first, from the 16 words of a block in reverse order. -/
def shaSchedule : Nat → List (BitVec 32) → List (BitVec 32)
  | 0, w => w
  | n + 1, w =>
    shaSchedule n ((shaSmall1 (w.getD 1 0) + w.getD 6 0 + shaSmall0 (w.getD 14 0) + w.getD 15 0) :: w)

/-- One round on the eight working words. -/
def shaRound (v : List (BitVec 32)) (kw : BitVec 32) : List (BitVec 32) :=
  match v with
  | [a, b, c, d, e, f, g, h] =>
    let t1 := h + shaBig1 e + ((e &&& f) ^^^ (~~~e &&& g)) + kw
    let t2 := shaBig0 a + ((a &&& b) ^^^ (a &&& c) ^^^ (b &&& c))
    [t1 + t2, a, b, c, d + t1, e, f, g]
  | _ => v

/-- The big-endian words of a block. -/
def beWords : Nat → Octets → List (BitVec 32)
  | 0, _ => []
  | n + 1, o => BitVec.ofNat 32 (beNat (o.take 4)) :: beWords n (o.drop 4)

/-- One 64-octet block. -/
def shaBlock (h : List (BitVec 32)) (o : Octets) : List (BitVec 32) :=
  let w := (shaSchedule 48 (beWords 16 o).reverse).reverse
  let v := (List.zipWith (· + ·) shaK w).foldl shaRound h
  List.zipWith (· + ·) h v

def shaBlocks : Nat → List (BitVec 32) → Octets → List (BitVec 32)
  | 0, h, _ => h
  | n + 1, h, o => shaBlocks n (shaBlock h (o.take 64)) (o.drop 64)

/-- The padded message: 0x80, zeros, and the length in bits in 8 octets. -/
def shaPad (o : Octets) : Octets :=
  o ++ [0x80#8] ++ zeros ((119 - o.length % 64) % 64) ++ beOctets 8 (o.length * 8)

def sha256 (o : Octets) : Octets :=
  let p := shaPad o
  (shaBlocks (p.length / 64) shaInit p).flatMap (fun w => beOctets 4 w.toNat)

def hmac256 (key msg : Octets) : Octets :=
  let k := fitTo 64 (if key.length > 64 then sha256 key else key)
  sha256 (k.map (· ^^^ 0x5C#8) ++ sha256 (k.map (· ^^^ 0x36#8) ++ msg))

def hkdfExtract (salt ikm : Octets) : Octets := hmac256 salt ikm

/-- HKDF-Expand for at most 32 octets of output. -/
def hkdfExpand (prk info : Octets) (len : Nat) : Octets := (hmac256 prk (info ++ [1#8])).take len

/-- The ASCII octets of a label (R83). -/
def ascii (t : String) : Octets := t.toList.map (fun c => BitVec.ofNat 8 c.toNat)

/-! ## AES-256 (FIPS 197) -/

def aesSbox : List Byte :=
  [0x63#8, 0x7c#8, 0x77#8, 0x7b#8, 0xf2#8, 0x6b#8, 0x6f#8, 0xc5#8, 0x30#8, 0x01#8, 0x67#8, 0x2b#8, 0xfe#8, 0xd7#8, 0xab#8, 0x76#8] ++
  [0xca#8, 0x82#8, 0xc9#8, 0x7d#8, 0xfa#8, 0x59#8, 0x47#8, 0xf0#8, 0xad#8, 0xd4#8, 0xa2#8, 0xaf#8, 0x9c#8, 0xa4#8, 0x72#8, 0xc0#8] ++
  [0xb7#8, 0xfd#8, 0x93#8, 0x26#8, 0x36#8, 0x3f#8, 0xf7#8, 0xcc#8, 0x34#8, 0xa5#8, 0xe5#8, 0xf1#8, 0x71#8, 0xd8#8, 0x31#8, 0x15#8] ++
  [0x04#8, 0xc7#8, 0x23#8, 0xc3#8, 0x18#8, 0x96#8, 0x05#8, 0x9a#8, 0x07#8, 0x12#8, 0x80#8, 0xe2#8, 0xeb#8, 0x27#8, 0xb2#8, 0x75#8] ++
  [0x09#8, 0x83#8, 0x2c#8, 0x1a#8, 0x1b#8, 0x6e#8, 0x5a#8, 0xa0#8, 0x52#8, 0x3b#8, 0xd6#8, 0xb3#8, 0x29#8, 0xe3#8, 0x2f#8, 0x84#8] ++
  [0x53#8, 0xd1#8, 0x00#8, 0xed#8, 0x20#8, 0xfc#8, 0xb1#8, 0x5b#8, 0x6a#8, 0xcb#8, 0xbe#8, 0x39#8, 0x4a#8, 0x4c#8, 0x58#8, 0xcf#8] ++
  [0xd0#8, 0xef#8, 0xaa#8, 0xfb#8, 0x43#8, 0x4d#8, 0x33#8, 0x85#8, 0x45#8, 0xf9#8, 0x02#8, 0x7f#8, 0x50#8, 0x3c#8, 0x9f#8, 0xa8#8] ++
  [0x51#8, 0xa3#8, 0x40#8, 0x8f#8, 0x92#8, 0x9d#8, 0x38#8, 0xf5#8, 0xbc#8, 0xb6#8, 0xda#8, 0x21#8, 0x10#8, 0xff#8, 0xf3#8, 0xd2#8] ++
  [0xcd#8, 0x0c#8, 0x13#8, 0xec#8, 0x5f#8, 0x97#8, 0x44#8, 0x17#8, 0xc4#8, 0xa7#8, 0x7e#8, 0x3d#8, 0x64#8, 0x5d#8, 0x19#8, 0x73#8] ++
  [0x60#8, 0x81#8, 0x4f#8, 0xdc#8, 0x22#8, 0x2a#8, 0x90#8, 0x88#8, 0x46#8, 0xee#8, 0xb8#8, 0x14#8, 0xde#8, 0x5e#8, 0x0b#8, 0xdb#8] ++
  [0xe0#8, 0x32#8, 0x3a#8, 0x0a#8, 0x49#8, 0x06#8, 0x24#8, 0x5c#8, 0xc2#8, 0xd3#8, 0xac#8, 0x62#8, 0x91#8, 0x95#8, 0xe4#8, 0x79#8] ++
  [0xe7#8, 0xc8#8, 0x37#8, 0x6d#8, 0x8d#8, 0xd5#8, 0x4e#8, 0xa9#8, 0x6c#8, 0x56#8, 0xf4#8, 0xea#8, 0x65#8, 0x7a#8, 0xae#8, 0x08#8] ++
  [0xba#8, 0x78#8, 0x25#8, 0x2e#8, 0x1c#8, 0xa6#8, 0xb4#8, 0xc6#8, 0xe8#8, 0xdd#8, 0x74#8, 0x1f#8, 0x4b#8, 0xbd#8, 0x8b#8, 0x8a#8] ++
  [0x70#8, 0x3e#8, 0xb5#8, 0x66#8, 0x48#8, 0x03#8, 0xf6#8, 0x0e#8, 0x61#8, 0x35#8, 0x57#8, 0xb9#8, 0x86#8, 0xc1#8, 0x1d#8, 0x9e#8] ++
  [0xe1#8, 0xf8#8, 0x98#8, 0x11#8, 0x69#8, 0xd9#8, 0x8e#8, 0x94#8, 0x9b#8, 0x1e#8, 0x87#8, 0xe9#8, 0xce#8, 0x55#8, 0x28#8, 0xdf#8] ++
  [0x8c#8, 0xa1#8, 0x89#8, 0x0d#8, 0xbf#8, 0xe6#8, 0x42#8, 0x68#8, 0x41#8, 0x99#8, 0x2d#8, 0x0f#8, 0xb0#8, 0x54#8, 0xbb#8, 0x16#8]

def aesSub (b : Byte) : Byte := aesSbox.getD b.toNat 0

def xtime (b : Byte) : Byte := if b.getLsbD 7 then (b <<< 1) ^^^ 0x1B#8 else b <<< 1

/-- The key schedule as four-octet words, newest first, from the 8 words of the key in reverse order. -/
def aesExpand : Nat → Nat → Byte → List Octets → List Octets
  | 0, _, _, w => w
  | n + 1, i, rcon, w =>
    let last := w.headD []
    let back := w.getD 7 []
    let t := if i % 8 = 0 then
        (match (last.drop 1 ++ last.take 1).map aesSub with
          | a :: rest => (a ^^^ rcon) :: rest
          | [] => [])
      else if i % 8 = 4 then last.map aesSub else last
    aesExpand n (i + 1) (if i % 8 = 0 then xtime rcon else rcon) (List.zipWith (· ^^^ ·) back t :: w)

/-- The words of a 32-octet key. -/
def quads : Nat → Octets → List Octets
  | 0, _ => []
  | n + 1, o => o.take 4 :: quads n (o.drop 4)

/-- The 15 round keys of 16 octets. -/
def aesRoundKeys (key : Octets) : List Octets :=
  let ws := (aesExpand 52 8 0x01#8 (quads 8 key).reverse).reverse
  (List.range 15).map (fun r => ((ws.drop (4 * r)).take 4).flatten)

/-- ShiftRows on the column-major state. -/
def aesShiftRows (st : Octets) : Octets :=
  (List.range 16).map (fun i => st.getD ((i % 4 + 4 * ((i / 4 + i % 4) % 4))) 0)

def aesMixColumn (c : Octets) : Octets :=
  match c with
  | [a, b, d, e] =>
    let all := a ^^^ b ^^^ d ^^^ e
    [a ^^^ all ^^^ xtime (a ^^^ b), b ^^^ all ^^^ xtime (b ^^^ d),
     d ^^^ all ^^^ xtime (d ^^^ e), e ^^^ all ^^^ xtime (e ^^^ a)]
  | _ => c

def xorOctets (a b : Octets) : Octets := List.zipWith (· ^^^ ·) a b

/-- The rounds after the first key addition; the last has no MixColumns. -/
def aesRounds : List Octets → Octets → Octets
  | [], st => st
  | [k], st => xorOctets (aesShiftRows (st.map aesSub)) k
  | k :: ks, st => aesRounds ks (xorOctets ((quads 4 (aesShiftRows (st.map aesSub))).flatMap aesMixColumn) k)

/-- AES-256 encryption of one 16-octet block. -/
def aesEncrypt (key block : Octets) : Octets :=
  match aesRoundKeys key with
  | [] => block
  | k :: ks => aesRounds ks (xorOctets block k)

/-! ## The GCM tag with empty plaintext (R85) -/

/-- Multiplication in the field of GCM, bit 127 being the first. -/
def gcmMul (x y : BitVec 128) : BitVec 128 :=
  ((List.range 128).foldl (fun (acc : BitVec 128 × BitVec 128) i =>
    let z := if x.getLsbD (127 - i) then acc.1 ^^^ acc.2 else acc.1
    let v := if acc.2.getLsbD 0 then (acc.2 >>> 1) ^^^ (0xE1#128 <<< 120) else acc.2 >>> 1
    (z, v)) (0#128, y)).1

def ghashBlocks : Nat → BitVec 128 → BitVec 128 → Octets → BitVec 128
  | 0, _, y, _ => y
  | n + 1, h, y, o => ghashBlocks n h (gcmMul (y ^^^ BitVec.ofNat 128 (beNat (fitTo 16 (o.take 16)))) h) (o.drop 16)

/-- AES-256-GCM tag over additional data `aad` with a 12-octet nonce and no plaintext. -/
def gcmTag (key nonce aad : Octets) : Octets :=
  let h := BitVec.ofNat 128 (beNat (aesEncrypt key (zeros 16)))
  let y := ghashBlocks (ceilDiv aad.length 16) h 0#128 aad
  let y := gcmMul (y ^^^ BitVec.ofNat 128 (aad.length * 8 * 2 ^ 64)) h
  xorOctets (beOctets 16 y.toNat) (aesEncrypt key (nonce ++ [0#8, 0#8, 0#8, 1#8]))

/-! ## SipHash-2-4 -/

structure SipState where
  v0 : BitVec 64
  v1 : BitVec 64
  v2 : BitVec 64
  v3 : BitVec 64
deriving DecidableEq, Repr

def sipRound (s : SipState) : SipState :=
  let v0 := s.v0 + s.v1
  let v1 := s.v1.rotateLeft 13 ^^^ v0
  let v0 := v0.rotateLeft 32
  let v2 := s.v2 + s.v3
  let v3 := s.v3.rotateLeft 16 ^^^ v2
  let v0 := v0 + v3
  let v3 := v3.rotateLeft 21 ^^^ v0
  let v2 := v2 + v1
  let v1 := v1.rotateLeft 17 ^^^ v2
  let v2 := v2.rotateLeft 32
  { v0, v1, v2, v3 }

def sipWord (s : SipState) (m : BitVec 64) : SipState :=
  let t := sipRound (sipRound { s with v3 := s.v3 ^^^ m })
  { t with v0 := t.v0 ^^^ m }

def sipWords : Nat → SipState → Octets → SipState
  | 0, s, _ => s
  | n + 1, s, o => sipWords n (sipWord s (BitVec.ofNat 64 (leNat (o.take 8)))) (o.drop 8)

/-- SipHash-2-4 of `o` under a 16-octet key, k0 being its octets 0 to 7 read little-endian. -/
def sipHash24 (key o : Octets) : BitVec 64 :=
  let k0 := BitVec.ofNat 64 (leNat (key.take 8))
  let k1 := BitVec.ofNat 64 (leNat ((key.drop 8).take 8))
  let s : SipState := { v0 := k0 ^^^ 0x736f6d6570736575#64, v1 := k1 ^^^ 0x646f72616e646f6d#64,
                        v2 := k0 ^^^ 0x6c7967656e657261#64, v3 := k1 ^^^ 0x7465646279746573#64 }
  let n := o.length / 8
  let s := sipWords n s o
  let s := sipWord s (BitVec.ofNat 64 (leNat (o.drop (8 * n)) + (o.length % 256) * 2 ^ 56))
  let s := sipRound (sipRound (sipRound (sipRound { s with v2 := s.v2 ^^^ 0xFF#64 })))
  s.v0 ^^^ s.v1 ^^^ s.v2 ^^^ s.v3

end Sys2Proof.Machine
end

