-- ==== Sys2Proof/Machine/Frames.lean ====
section
/-! DEFINITION. Ethernet, IP and UDP frames as octets: what the MAC reads of a received frame (R369 to R375, R74), and the
frames the device builds (R75, R381, R382, R397). The octets of a received frame end with its FCS. -/

namespace Sys2Proof.Machine

/-- The Ethernet part of a frame: addresses, tag (PCP, VLAN ID), whether the tagging is acceptable, EtherType and body. -/
structure EthHead where
  dst : Nat
  src : Nat
  tag : Option (Nat × Nat)
  tagOk : Bool
  etype : Nat
  body : Octets
deriving DecidableEq, Repr

/-- The header of a frame without its FCS. -/
def parseEth (o : Octets) : EthHead :=
  let t := beAt o 12 2
  if t = 0x8100 then
    let inner := beAt o 16 2
    { dst := beAt o 0 6, src := beAt o 6 6, tag := some (beAt o 14 2 / 8192, beAt o 14 2 % 4096)
      tagOk := !(decide (inner = 0x8100) || decide (inner = 0x88A8)), etype := inner, body := o.drop 18 }
  else
    { dst := beAt o 0 6, src := beAt o 6 6, tag := none, tagOk := !decide (t = 0x88A8), etype := t, body := o.drop 14 }

/-- What the MAC reads of an IP packet. `l4` is the transport part as the lengths bound it. -/
structure IpHead where
  src : Addr
  dst : Addr
  dscp : Nat
  proto : Nat
  /-- IPv4 version, header checksum and total length hold (check 8); for IPv6 true. -/
  headOk : Bool
  /-- Header of 5 words with no fragment, or no extension header (R74). -/
  plain : Bool
  fragment : Bool
  l4 : Octets
deriving DecidableEq, Repr

/-- The IP packet of an Ethernet body, when the EtherType says there is one. -/
def parseIp (h : EthHead) : Option IpHead :=
  let b := h.body
  if h.etype = 0x0800 then
    let ihl := beAt b 0 1 % 16
    let total := beAt b 2 2
    let frag := decide (beAt b 6 2 % 0x4000 ≠ 0)
    some { src := .v4 (BitVec.ofNat 32 (beAt b 12 4)), dst := .v4 (BitVec.ofNat 32 (beAt b 16 4))
           dscp := beAt b 1 1 / 4, proto := beAt b 9 1
           headOk := decide (beAt b 0 1 / 16 = 4) && decide (5 ≤ ihl) && decide (ihl * 4 ≤ total) &&
             decide (total ≤ b.length) && decide (inetChecksum (b.take (ihl * 4)) = 0)
           plain := decide (ihl = 5) && !frag, fragment := frag
           l4 := slice b (ihl * 4) (total - ihl * 4) }
  else if h.etype = 0x86DD then
    some { src := .v6 (BitVec.ofNat 128 (beAt b 8 16)), dst := .v6 (BitVec.ofNat 128 (beAt b 24 16))
           dscp := beAt b 0 2 / 64 % 64, proto := beAt b 6 1, headOk := true
           plain := true, fragment := false, l4 := slice b 40 (beAt b 4 2) }
  else none

/-- The octets of an address. -/
def addrOctets : Addr → Octets
  | .v4 a => beOctets 4 a.toNat
  | .v6 a => beOctets 16 a.toNat

/-- The pseudo-header of a transport checksum. -/
def pseudoHeader (src dst : Addr) (proto len : Nat) : Octets :=
  match src with
  | .v4 _ => addrOctets src ++ addrOctets dst ++ [0#8, BitVec.ofNat 8 proto] ++ beOctets 2 len
  | .v6 _ => addrOctets src ++ addrOctets dst ++ beOctets 4 len ++ [0#8, 0#8, 0#8, BitVec.ofNat 8 proto]

/-- The transport checksum of a received packet holds (R380); a fragment is not checked. A UDP Length that differs from the IP
payload's counts as a bad checksum where there is a checksum, and is not looked at where that is 0 (DESIGN CHOICE, log 114). -/
def l4ChecksumOk (h : IpHead) : Bool :=
  let good := decide (inetChecksum (pseudoHeader h.src h.dst h.proto h.l4.length ++ h.l4) = 0)
  if h.fragment then true
  else if h.proto = 17 then
    decide (beAt h.l4 6 2 = 0) || (good && decide (beAt h.l4 4 2 = h.l4.length))
  else if h.proto = 6 then good
  else true

/-- R74: what the device accepts of the packets that pass the checks. -/
def ipAccepted (h : IpHead) : Bool :=
  h.plain && decide (h.proto = 17) &&
  (match h.src with
    | .v4 _ => true
    | .v6 _ => decide (beAt h.l4 6 2 ≠ 0))

/-- A frame padded to the shortest Ethernet frame, without its FCS. -/
def ethPad (o : Octets) : Octets := o ++ zeros (60 - o.length)

/-- Ethernet header with an optional tag of PCP and VLAN ID. -/
def ethHeader (dst src : Nat) (tag : Option (Nat × Nat)) (etype : Nat) : Octets :=
  beOctets 6 dst ++ beOctets 6 src ++
  (match tag with
    | none => []
    | some (pcp, vid) => beOctets 2 0x8100 ++ beOctets 2 (pcp * 8192 + vid)) ++ beOctets 2 etype

/-- UDP header and payload with its checksum; a sum of 0 is sent as all ones. -/
def udpPacket (src dst : Addr) (sport dport : Nat) (payload : Octets) : Octets :=
  let len := 8 + payload.length
  let head (c : Nat) : Octets := beOctets 2 sport ++ beOctets 2 dport ++ beOctets 2 len ++ beOctets 2 c
  let c := inetChecksum (pseudoHeader src dst 17 len ++ head 0 ++ payload)
  head (if c = 0 then 65535 else c) ++ payload

/-- An IP packet that carries a UDP datagram: DF and TTL 64 on IPv4, the hop limit given and Flow Label 0 on IPv6 (R75,
R397). -/
def ipPacket (src dst : Addr) (dscp hops : Nat) (udp : Octets) : Octets :=
  match src with
  | .v4 _ =>
    let head (c : Nat) : Octets :=
      [0x45#8, BitVec.ofNat 8 (dscp * 4)] ++ beOctets 2 (20 + udp.length) ++ beOctets 2 0 ++ beOctets 2 0x4000 ++
      [BitVec.ofNat 8 hops, 17#8] ++ beOctets 2 c ++ addrOctets src ++ addrOctets dst
    head (inetChecksum (head 0)) ++ udp
  | .v6 _ =>
    beOctets 4 (0x60000000 + dscp * 2 ^ 22) ++ beOctets 2 udp.length ++ [17#8, BitVec.ofNat 8 hops] ++
    addrOctets src ++ addrOctets dst ++ udp

/-- EtherType of an address's packets. -/
def addrEtype : Addr → Nat
  | .v4 _ => 0x0800
  | .v6 _ => 0x86DD

/-- A whole UDP frame of the device, without its FCS. -/
def udpFrame (dst src : Nat) (tag : Option (Nat × Nat)) (dscp hops : Nat) (sip dip : Addr) (sport dport : Nat)
    (payload : Octets) : Octets :=
  ethPad (ethHeader dst src tag (addrEtype sip) ++ ipPacket sip dip dscp hops (udpPacket sip dip sport dport payload))

/-- A frame as it leaves the MAC, with its FCS: the CRC in the order of transmission. -/
def withFcs (o : Octets) : Octets := o ++ leOctets 4 (fcs32 o).toNat

/-- The FCS of a received frame holds. -/
def fcsOk (o : Octets) : Bool :=
  let n := o.length - 4
  decide (o.drop n = leOctets 4 (fcs32 (o.take n)).toNat)

/-- An ARP packet for IPv4 over Ethernet. -/
def arpPacket (op sha spa tha tpa : Nat) : Octets :=
  beOctets 2 1 ++ beOctets 2 0x0800 ++ [6#8, 4#8] ++ beOctets 2 op ++ beOctets 6 sha ++ beOctets 4 spa ++
  beOctets 6 tha ++ beOctets 4 tpa

end Sys2Proof.Machine
end

