-- ==== Sys2Proof/Machine/Geometry.lean ====
section
/-! DEFINITION. The media geometry: addresses (R279, R281), the profile in use (R268, R269), erasures and capacities of a
region (R294, R321). Flash dies are named channel × 16 + position, blocks flash die × 16,384 + block number. -/

namespace Sys2Proof.Machine

/-! ## Physical chunk addresses (Table 9-7) -/

def pcaSlot (p : Nat) : Nat := p % 4096
def pcaBlockNo (p : Nat) : Nat := p / 2 ^ 12 % 2 ^ 14
def pcaPos (p : Nat) : Nat := p / 2 ^ 26 % 16
def pcaChannel (p : Nat) : Nat := p / 2 ^ 30 % 64
/-- The flash die and the block of a physical chunk address. -/
def pcaFlash (p : Nat) : Nat := pcaChannel p * 16 + pcaPos p
def pcaBlock (p : Nat) : Nat := pcaFlash p * 16384 + pcaBlockNo p
/-- The physical chunk address of slot k of a block. -/
def pcaOf (block k : Nat) : Nat :=
  k + (block % 16384) * 2 ^ 12 + (block / 16384 % 16) * 2 ^ 26 + (block / 262144) * 2 ^ 30

def Die.channel (d : Die) (c : Nat) : Channel := tabGet (fun _ => {}) d.channels c
def Die.flashDie (d : Die) (f : Nat) : FlashDie := tabGet (fun _ => {}) d.flash f
def Die.block (d : Die) (b : Nat) : Block := tabGet (fun _ => {}) d.blocks b
def Die.slot (d : Die) (p : Nat) : Option Slot := tabGet (fun _ => none) d.slots p
def Die.super (d : Die) (n : Nat) : Option Super := tabGet (fun _ => none) d.supers n
def Die.region (d : Die) (r : Nat) : Region := tabGet (fun _ => {}) d.regions r

def Die.modChannel (d : Die) (c : Nat) (f : Channel → Channel) : Die :=
  { d with channels := tabMod (fun _ => {}) d.channels c f }
def Die.modFlash (d : Die) (n : Nat) (f : FlashDie → FlashDie) : Die :=
  { d with flash := tabMod (fun _ => {}) d.flash n f }
def Die.modBlock (d : Die) (b : Nat) (f : Block → Block) : Die :=
  { d with blocks := tabMod (fun _ => {}) d.blocks b f }
def Die.setSlot (d : Die) (p : Nat) (v : Option Slot) : Die := { d with slots := tabSet (fun _ => none) d.slots p v }
def Die.setSuper (d : Die) (n : Nat) (v : Option Super) : Die := { d with supers := tabSet (fun _ => none) d.supers n v }
def Die.modSuper (d : Die) (n : Nat) (f : Super → Super) : Die :=
  { d with supers := tabMod (fun _ => none) d.supers n (fun o => o.map f) }
def Die.modRegion (d : Die) (r : Nat) (f : Region → Region) : Die :=
  { d with regions := tabMod (fun _ => {}) d.regions r f }

/-! ## The profile in use (R268, R269) -/

/-- The READ ID octets match a profile under its mask. -/
def profileMatches (id prof : Octets) : Bool :=
  (upto 6).all (fun i => (id.getD i 0 &&& prof.getD (10 + i) 0) == prof.getD (4 + i) 0)

/-- The first profile, in image order, that an ID matches. -/
def State.profileFor (s : State) (id : Octets) : Option Octets := s.profiles.find? (fun p => profileMatches id p)

/-- The one profile that all dies of the package match: that of channel 0 of store die 0. -/
def State.profile (s : State) : Octets :=
  match s.profileFor (tabGet (fun _ => []) ((s.die 0).channel 0).ids 0) with
  | some p => p
  | none => []

/-- N_Q, BPP and the timings in ns of the profile in use (Table 9-2). -/
def State.nq (s : State) : Nat := leAt s.profile 18 2
def State.bpp (s : State) : Nat := leAt s.profile 20 2
def State.trQ (s : State) : Nat := leAt s.profile 24 4
def State.tprogS (s : State) : Nat := leAt s.profile 36 4

/-- D: dies per channel (R268). -/
def State.diesPerChannel (s : State) : Nat := ((s.die 0).channel 0).dies

/-- Chunk slots of a block in its mode (R279). -/
def State.slotsOf (s : State) (slc : Bool) : Nat := if slc then s.nq / 4 else s.nq

/-! ## Erasures and capacities (R294, R321) -/

/-- Channel c of the die is an erasure at position p: it is retired, or the die at p has failed. -/
def Die.erased (d : Die) (c p : Nat) : Bool := (d.channel c).retired || (d.flashDie (c * 16 + p)).failed

/-- e_p of region r. -/
def Die.erasures (d : Die) (r p : Nat) : Nat := ((upto 16).filter (fun c => d.erased (r * 16 + c) p)).length

/-- Good blocks of flash die f: those of the plane count that are not retired. -/
def Die.goodBlocks (d : Die) (bpp f : Nat) : Nat :=
  bpp - ((d.blocks.filter (fun e => decide (e.1 / 16384 = f) && e.2.bad)).length)

/-- S_p of region r: superblocks that position p can form. -/
def Die.superblocksAt (d : Die) (bpp r p : Nat) : Nat :=
  ((upto 16).filter (fun c => !d.erased (r * 16 + c) p)).foldl
    (fun m c => min m (d.goodBlocks bpp ((r * 16 + c) * 16 + p))) bpp

/-- DS of region r of store die d. -/
def State.dsOf (s : State) (d r : Nat) : Nat :=
  let x := s.die d
  (s.nq - 1) * sumOf (fun p =>
    let e := x.erasures r p
    if 3 ≤ e then 0 else x.superblocksAt s.bpp r p * (14 - e)) (upto s.diesPerChannel)

/-- LCAP of region r of store die d. -/
def State.lcapOf (s : State) (d r : Nat) : Nat := 86 * s.dsOf d r / 100

/-- The most erasures at any position of region r. -/
def State.worstErasures (s : State) (d r : Nat) : Nat :=
  (upto s.diesPerChannel).foldl (fun m p => max m ((s.die d).erasures r p)) 0

/-- Redundancy of region r (Table 10-8); 0 also when a position is offline. -/
def State.redundancy (s : State) (d r : Nat) : Nat := 2 - s.worstErasures d r

end Sys2Proof.Machine
end

