-- ==== Sys2Proof/Machine/Placement.lean ====
section
/-! DEFINITION. Namespaces (R40), buckets and placement (R411 to R413), and availability (R475). -/

namespace Sys2Proof.Machine

/-- Reset value of namespace entry n (Table 2-1). -/
def nsDefault (n : Nat) : W32 := if n = 0 then 0x0002F001#32 else 0x0002F000#32

/-- Entry n of the namespace table in force. -/
def State.nsEntry (s : State) (n : Nat) : W32 := tabGet nsDefault s.tables.ns n

def nsEnabled (e : W32) : Bool := e.getLsbD 0
def nsKeyslot (e : W32) : Nat := field e 1 10
def nsSepEn (e : W32) : Bool := e.getLsbD 11
def nsSep (e : W32) : Byte := BitVec.ofNat 8 (field e 12 8)
def nsReadOnly (e : W32) : Bool := e.getLsbD 20

/-- The 16 octets of the HKEY secret (R200, R201). -/
def State.hkeyOctets (s : State) : Octets := beOctets 16 s.tables.hkey.toNat

/-! ## Placement -/

def Member.selOk (m : Member) : Bool := m.flags.testBit 0
def Member.mounted (m : Member) : Bool := m.flags.testBit 1
def Member.fillDone (m : Member) : Bool := m.flags.testBit 2

/-- Weight of member u for bucket b (R412). -/
def bucketWeight (hkey : Octets) (b : Nat) (u : BitVec 64) : Nat :=
  (sipHash24 hkey (beOctets 2 b ++ beOctets 8 u.toNat)).toNat

/-- The replicas of bucket b in generation g, in descending weight, the lower unique ID first on equal weights. -/
def replicasOf (hkey : Octets) (g : Gen) (b : Nat) : List Member :=
  let byUid := sortBy (fun m => m.uid.toNat) g.members
  let sorted := sortBy (fun m => 2 ^ 64 - 1 - bucketWeight hkey b m.uid) byUid
  sorted.take (min g.repl g.members.length)

/-- The SERVING replicas of bucket b in the first of `gens`, the older generations following; only the one
just before counts as the previous generation (R412). -/
def servingOf (hkey : Octets) : List Gen → Nat → List Member
  | [], _ => []
  | g :: older, b =>
    let was : List (BitVec 64) := match older with
      | p :: _ => if p.num + 1 = g.num then (servingOf hkey older b).map (fun m => m.uid) else []
      | [] => []
    (replicasOf hkey g b).filter (fun m => m.fillDone || was.contains m.uid)

/-- The generations adopted since BOOT, newest first. -/
def State.gens (s : State) : List Gen := s.fab.gen.toList ++ s.fab.older

/-- The SERVING replicas of bucket b now. -/
def State.serving (s : State) (b : Nat) : List Member := servingOf s.hkeyOctets s.gens b

/-- The replicas of bucket b now, SERVING ones first. -/
def State.placement (s : State) (b : Nat) : List (Member × Bool) :=
  match s.fab.gen with
  | none => []
  | some g =>
    let serving := (s.serving b).map (fun m => m.uid)
    let all := replicasOf s.hkeyOctets g b
    ((all.filter (fun m => serving.contains m.uid)).map (fun m => (m, true))) ++
    ((all.filter (fun m => !serving.contains m.uid)).map (fun m => (m, false)))

/-- The bucket of a stem hash: bits [63:48] (R411). -/
def bucketOf (h : W64) : Nat := bitsOf h.toNat 48 16

/-- The global region of a stem hash: bits [3:0] (R150, R413). -/
def regionOf (h : W64) : Nat := bitsOf h.toNat 0 4

/-- The acting executor of stem hash h; SELOK too where the class needs it (R413). -/
def State.actingExecutor (s : State) (h : W64) (needSel : Bool) : Option Member :=
  (s.serving (bucketOf h)).find? (fun m => m.serve.getLsbD (regionOf h) && (!needSel || m.selOk))

/-- A placement table entry (Table 13-4). -/
def State.placementEntry (s : State) (b : Nat) : Nat :=
  let ps := s.placement b
  let addr (k : Nat) : Nat := match ps[k]? with
    | some (m, _) => m.addr
    | none => 0
  let fill (k : Nat) : Nat := match ps[k]? with
    | some (_, false) => 1
    | _ => 0
  addr 0 + addr 1 * 2 ^ 12 + addr 2 * 2 ^ 24 + ps.length * 2 ^ 36 + fill 0 * 2 ^ 38 + fill 1 * 2 ^ 39 + fill 2 * 2 ^ 40

/-- This package is in its generation's member list. -/
def State.selfMember (s : State) : Option Member :=
  match s.fab.gen with
  | none => none
  | some g => g.members.find? (fun m => m.uid == Config.uid)

/-- Every enabled namespace is readable through the package (R475): each bucket and region has a SERVING replica that
serves the region; no namespace enabled leaves nothing to read. -/
def State.allReadable (s : State) : Bool :=
  !(upto 4096).any (fun n => nsEnabled (s.nsEntry n)) ||
  (upto 65536).all (fun b =>
    let ms := s.serving b
    (upto 16).all (fun r => ms.any (fun m => m.serve.getLsbD r)))

/-- The package is available (R475). -/
def State.available (s : State) : Bool :=
  (decide (s.mode.mode = Mode.service) || decide (s.mode.mode = Mode.degraded)) && s.allReadable

end Sys2Proof.Machine
end

