-- ==== Sys2Proof/Machine/Mode.lean ====
section
/-! DEFINITION. What the package mode and the degradation causes follow: regions and dies out of service (R321, R473), the
end of LINKUP (R549), the end of MOUNT and entry into service (R424, R447). -/

namespace Sys2Proof.Machine

/-! ## Regions and dies out of service -/

/-- Every engine of region r of store die d is retired (R152). -/
def State.enginesGone (s : State) (d r : Nat) : Bool := (upto 32).all (fun e => (s.engFault (d * 128 + r * 32 + e)).retired)

/-- Region r of store die d is offline (R473): its die is, or all its engines are retired. -/
def State.regionOffline (s : State) (d r : Nat) : Bool := !(s.die d).online || s.enginesGone d r

/-- A global region is offline. -/
def State.globalOffline (s : State) (g : Nat) : Bool := s.regionOffline (g / 4) (g % 4)

/-- A die position of region r has three or more erasures: its superblocks are offline (R321). -/
def State.positionOffline (s : State) (d r : Nat) : Bool := decide (3 ≤ s.worstErasures d r)

/-- REDUND, OFFLINE and UNFMT as Table 15-3 states them. -/
def State.settleCauses (s : State) : State :=
  let regions := (upto 4).flatMap (fun d => (upto 4).map (fun r => (d, r)))
  let redund := regions.any (fun e => decide (0 < s.worstErasures e.1 e.2))
  let off := (upto 4).any (fun d => decide ((s.die d).cause ≠ 0)) ||
    regions.any (fun e => s.enginesGone e.1 e.2 || s.positionOffline e.1 e.2)
  let unfmt := (upto 4).any (fun d => decide ((s.die d).cause = 5))
  ((s.setCause 0 redund).setCause 1 off).setCause 7 unfmt

/-- Store die d goes offline for a cause of R473, or returns with cause 0: the events and the causes. -/
def State.dieOffline (s : State) (d cause : Nat) : State :=
  if (s.die d).cause = cause then s
  else
    let t := s.modDie d (fun x => { x with cause := cause, online := if cause = 0 then x.online else false })
    let t := if cause = 0 then t.raiseAt 0x0131 (srcOf 0x16 0) t.commitNow (t.fullPlace (placeOf (d + 1) 0 0 0x01 0)) 0
      else t.raiseAt 0x0130 (srcOf 0x16 0) t.commitNow (t.fullPlace (placeOf (d + 1) 0 0 0x01 0)) cause
    t.settleCauses

/-! ## LINKUP ends (R549) -/

/-- MAC m is present under the width in force of its group (Table 12-2). -/
def State.macPresent (s : State) (m : Nat) : Bool :=
  match field (s.group (m / 4)).live 0 2 with
  | 0 => decide (m % 4 = 0)
  | 1 => decide (m % 4 < 2)
  | _ => true

/-- Every flash channel has ended training, every present MAC is up or has failed. -/
def State.linkupDone (s : State) : Bool :=
  (upto 4).all (fun d => (upto 64).all (fun c => ((s.die d).channel c).trainEnded)) &&
  (upto 128).all (fun m => !s.macPresent m || (s.mac m).link || (s.mac m).trainFailed)

/-- LINKUP ends in IMPORT when a store die holds EZ-64 blocks and IMPORTDIS is 0, else in MOUNT (Table 15-2). -/
def State.leaveLinkup (s : State) : State :=
  let ez := (upto 4).any (fun d => (s.die d).ez64)
  s.toMode (if ez && !s.otp.importDis then .imports else .mount)

/-- LINKUP ends when R549 says so. -/
def State.settleLinkup (s : State) : State :=
  if decide (s.mode.mode = Mode.linkup) && s.linkupDone then s.leaveLinkup else s

/-! ## Entry into service (R424) -/

/-- R424: MOUNT has ended, the generation's record of the package shows MOUNTED, no minority. -/
def State.serviceReady (s : State) : Bool :=
  s.mode.mounted && !s.cause 4 &&
  (match s.selfMember with
    | some m => m.mounted
    | none => false)

/-- A generation that names the package clears NOGEN (R449); MOUNT and IMPORT end when R424 is met. -/
def State.settleServe (s : State) : State :=
  let t := if s.selfMember.isSome then s.setCause 6 false else s
  if (decide (t.mode.mode = Mode.mount) || decide (t.mode.mode = Mode.imports)) && t.serviceReady then
    t.toMode t.servingMode
  else t

end Sys2Proof.Machine
end

