-- ==== Sys2Proof/Machine/Arbiter.lean ====
section
/-! DEFINITION. The arbiters (R426 to R439): defaults of Table 14-2 and Table 8-8, requests, decisions, quota windows,
revocation, parking, sideband masking, the shutter. Arbiters are named by place code with FABADDR 0. -/

namespace Sys2Proof.Machine

/-- A requester's class, rank and quota at reset (Tables 14-2, 8-8); `port` tells a port-die endpoint. -/
def reqDefaults (cls : Nat) (port : Bool) (k : Nat) : Bool × Nat × Nat :=
  match cls, k with
  | 0x0B, 1 => (true, 7, 1)
  | 0x0B, 2 => (true, 6, 2)
  | 0x0B, 3 => (true, 5, 10)
  | 0x0B, 4 => (true, 4, 3)
  | 0x0C, 1 => (true, 7, 64)
  | 0x0C, 2 => (true, 6, 512)
  | 0x0C, 3 => (true, 5, 512)
  | 0x0C, 4 => (true, 4, 256)
  | 0x0D, 0 => (true, 7, 128)
  | 0x0D, 1 => (true, 6, if port then 1024 else 3072)
  | 0x0D, 2 => (true, 5, if port then 2048 else 16)
  | 0x0E, 0 => (true, 7, 64)
  | 0x0E, 1 => (true, 6, 512)
  | 0x0E, 2 => (true, 5, 8)
  | _, _ => (false, 0, 0)

/-- Requester k of arbiter p at reset. -/
def reqReset (p k : Nat) : ArbReq :=
  let d := reqDefaults (Wf.placeClass p) (decide (Wf.placeDie p = 0)) k
  { high := d.1, rank := d.2.1, quota := d.2.2, quotaLive := d.2.2 }

def State.arb (s : State) (p : Nat) : Arb := tabGet (fun _ => {}) s.arbs p

def State.modArb (s : State) (p : Nat) (f : Arb → Arb) : State := { s with arbs := tabMod (fun _ => {}) s.arbs p f }

/-- Requester k of arbiter `a`, which is the one with place code p. -/
def Arb.req (a : Arb) (p k : Nat) : ArbReq := tabGet (reqReset p) a.reqs k

def Arb.modReq (a : Arb) (p k : Nat) (f : ArbReq → ArbReq) : Arb := { a with reqs := tabMod (reqReset p) a.reqs k f }

/-- The DUMP requester of flash-channel and HBM arbiters. -/
def isDump (p k : Nat) : Bool := decide (k = 0) && (decide (Wf.placeClass p = 0x0B) || decide (Wf.placeClass p = 0x0C))

/-- Quota-masked (R430, R431): the count is applied only in the high class, QUOTA 0 never masks. -/
def ArbReq.qmasked (r : ArbReq) : Bool := r.high && decide (r.quotaLive ≠ 0) && decide (r.quotaLive ≤ r.count)

/-- A dump is running, in HOLDUP or before a reset (R346, R496). -/
def State.dumpRuns (s : State) : Bool :=
  decide (s.mode.mode = Mode.holdup) || decide (s.mode.dump = DumpPhase.programs) || decide (s.mode.dump = DumpPhase.dumping)

/-- SHUT as the arbiter acts on it: HOLDUP sets it on every arbiter (R439). -/
def State.shutOf (s : State) (p : Nat) : Bool := (s.arb p).shut || decide (s.mode.mode = Mode.holdup)

/-- DSTATE: 0 OPEN, 1 DRAINING, 2 DRAINED (R438). -/
def State.dstate (s : State) (p : Nat) : Nat :=
  if s.shutOf p then (if (s.arb p).granted then 1 else 2) else 0

/-- Requester k has a request. -/
def Arb.asks (a : Arb) (p k : Nat) : Bool := decide ((a.req p k).pend ≠ [])

def Arb.asking (a : Arb) (p : Nat) : List Nat := (upto (Wf.requesters (Wf.placeClass p))).filter (fun k => a.asks p k)

/-- The element of greatest rank, the first of equals. -/
def topRank (rank : Nat → Nat) : List Nat → Option Nat
  | [] => none
  | k :: rest =>
    match topRank rank rest with
    | none => some k
    | some j => if rank k < rank j then some j else some k

/-- The next low-class requester in rotation after `last` (R428 step 4). -/
def nextLow (n last : Nat) (ks : List Nat) : Option Nat :=
  (upto n).findSome? (fun i =>
    let k := (last + 1 + i) % n
    if ks.contains k then some k else none)

/-- Which requester a decision grants (R428). -/
def Arb.choose (a : Arb) (p : Nat) (dumpOnly shut : Bool) : Option Nat :=
  let n := Wf.requesters (Wf.placeClass p)
  let ks := a.asking p
  let plain := ks.filter (fun k => !isDump p k)
  if dumpOnly then ks.find? (fun k => isDump p k)
  else if shut then none
  else
    let high := plain.filter (fun k => (a.req p k).high && !(a.req p k).qmasked)
    let low := plain.filter (fun k => !(a.req p k).high)
    let masked := plain.filter (fun k => (a.req p k).qmasked)
    match topRank (fun k => (a.req p k).rank) high with
    | some k => some k
    | none =>
      match nextLow n (if n ≤ a.lastLow then n - 1 else a.lastLow) low with
      | some k => some k
      | none => topRank (fun k => (a.req p k).rank) masked

/-- A grant made to requester k on behalf of `unit` (R430): it counts, and may mask. -/
def Arb.grantTo (a : Arb) (p k unit : Nat) : Arb :=
  let r := a.req p k
  let r' := { r with count := r.count + 1 }
  let a := a.modReq p k (fun _ => r')
  { a with
    owner := some k
    granted := true
    grantHigh := r.high || isDump p k
    grantUnit := unit
    grantNoRev := r.noRev
    lastLow := if r.high then a.lastLow else k
    qmasks := if r'.qmasked && !r.qmasked then satAdd 65535 a.qmasks 1 else a.qmasks }

/-- The grant in progress is revoked (R432 to R434); its request comes again first unless its unit is masked. -/
def Arb.revoke (a : Arb) (p : Nat) (restart : Bool) : Arb :=
  match a.owner with
  | none => a
  | some k =>
    let a := a.modReq p k (fun r =>
      { r with
        pend := if restart then a.grantUnit :: r.pend else r.pend
        revoked := r.revoked + 1
        noRev := r.noRev || (!r.high && decide (4 ≤ r.revoked + 1)) })
    { a with owner := none, granted := false, revokes := satAdd 65535 a.revokes 1 }

/-- A low-class holder is revoked while a high-class requester that is not masked presents a request (R432); bank grants never
are. -/
def Arb.yieldHigh (a : Arb) (p : Nat) : Arb :=
  let revocable := a.granted && !a.grantHigh && !a.grantNoRev && decide (Wf.placeClass p ≠ 0x0E)
  if revocable && (a.asking p).any (fun k => (a.req p k).high && !(a.req p k).qmasked) then a.revoke p true else a

/-- The park is dropped when another requester asks or the owner is quota-masked (R435). -/
def Arb.dropPark (a : Arb) (p : Nat) : Arb :=
  match a.owner with
  | none => a
  | some k =>
    if !a.granted && ((a.asking p).any (fun j => decide (j ≠ k)) || (a.req p k).qmasked) then { a with owner := none } else a

/-- A request of requester k on behalf of `unit` (R432, R435): the parked owner is granted at once, a low-class holder is
revoked for a high-class requester that is not masked. -/
def State.arbRequest (s : State) (p k unit : Nat) : State :=
  let a := s.arb p
  let r := a.req p k
  let parkedAgain := decide (a.owner = some k) && !a.granted && decide (a.asking p = []) && !r.qmasked &&
    !s.shutOf p && !s.dumpRuns
  if parkedAgain then s.modArb p (fun a => a.grantTo p k unit)
  else
    let a := a.modReq p k (fun r => { r with pend := r.pend ++ [unit] })
    s.modArb p (fun _ => (a.yieldHigh p).dropPark p)

/-- A decision (R428): nothing while a grant is in progress; the park is dropped. -/
def State.arbDecide (s : State) (p : Nat) : State :=
  let a := s.arb p
  if a.granted then s else
    let storage := decide (Wf.placeClass p = 0x0B) || decide (Wf.placeClass p = 0x0C)
    match a.choose p (s.dumpRuns && storage) (s.shutOf p) with
    | none => s
    | some k =>
      match (a.req p k).pend with
      | [] => s
      | u :: rest =>
        s.modArb p (fun _ => ((a.modReq p k (fun r => { r with pend := rest })).grantTo p k u))

/-- The state of endpoint n: 0 to 7 on the port die, 8 + 2s + k endpoint k of store die s. -/
def State.link (s : State) (n : Nat) : DieLink :=
  if n < 8 then tabGet (fun _ => {}) s.portLinks n else tabGet (fun _ => {}) (s.die ((n - 8) / 2)).links (n % 2)

def State.modLink (s : State) (n : Nat) (f : DieLink → DieLink) : State :=
  if n < 8 then { s with portLinks := tabMod (fun _ => {}) s.portLinks n f }
  else s.modDie ((n - 8) / 2) (fun d => { d with links := tabMod (fun _ => {}) d.links (n % 2) f })

/-- The store die that an endpoint joins to the port die, and which of its two links. -/
def linkDie (n : Nat) : Nat := if n < 8 then n / 2 else (n - 8) / 2

/-- Link k of store die d has a retired endpoint. -/
def State.linkRetired (s : State) (d k : Nat) : Bool := (s.link (2 * d + k)).retired || (s.link (8 + 2 * d + k)).retired

/-- The link of store die d that carries the traffic of its region r: endpoint 0 for regions 0 and 1, endpoint 1 for regions 2 and
3, and the one that is left when the other is retired (R23, R24). -/
def State.linkFor (s : State) (d r : Nat) : Nat :=
  let k := r / 2
  if s.linkRetired d k && !s.linkRetired d (1 - k) then 1 - k else k

/-- The units that can originate requests of requester k of arbiter p, by place code (log 11). -/
def State.originators (s : State) (p k : Nat) : List Nat :=
  let d := Wf.placeDie p
  let engines := (upto 128).map (fun e => enginePlace ((d - 1) * 128 + e))
  let mgmt := [placeOf d 0 0 0x10 0]
  match Wf.placeClass p, k with
  | 0x0B, 1 => [placeOf d (Wf.placeRegion p) 0 0x04 (Wf.placeIndex p)]
  | 0x0B, 3 => (upto 32).map (fun e => enginePlace ((d - 1) * 128 + Wf.placeRegion p * 32 + e))
  | 0x0C, 1 => (upto 4).map (fun r => placeOf d r 0 0x06 0)
  | 0x0C, 2 => [placeOf d 0 0 0x0A 0, placeOf d 0 0 0x0A 1]
  | 0x0C, 3 | 0x0C, 4 | 0x0C, 5 | 0x0C, 6 => engines
  | 0x0D, 0 => if d = 0 then [placeOf 0 0 0 0x16 0, placeOf 0 0 0 0x18 0] else mgmt
  | 0x0D, 1 =>
    if d = 0 then [placeOf 0 0 0 0x16 0]
    else (((upto 4).filter (fun r => decide (s.linkFor (d - 1) r = Wf.placeIndex p))).flatMap (fun r =>
      (upto 32).map (fun e => enginePlace ((d - 1) * 128 + r * 32 + e))))
  | 0x0D, 2 => if d = 0 then [placeOf 0 0 0 0x15 0] else [placeOf d 0 0 0x01 0]
  | 0x0E, _ => [placeOf d (Wf.placeRegion p) 0 0x06 0]
  | _, _ => mgmt

/-- SBMASK of requester k: every unit that can originate its requests is masked (R436). -/
def State.sbMasked (s : State) (p k : Nat) : Bool := (s.originators p k).all (fun u => s.masked.contains u)

/-- One arbiter when `unit` is masked: its queued requests are discarded, its grant is revoked without a restart, a park on
it is dropped (R436). -/
def Arb.maskUnit (a : Arb) (p unit : Nat) : Arb :=
  let a := (upto (Wf.requesters (Wf.placeClass p))).foldl
    (fun a k => a.modReq p k (fun r => { r with pend := r.pend.filter (fun u => u != unit) })) a
  if a.owner.isSome && a.grantUnit == unit then
    (if a.granted then a.revoke p false else { a with owner := none })
  else a

/-- A unit enters reset or retirement: masked at every arbiter, its locks released as abandoned (R436, R442, R443). -/
def State.maskUnit (s : State) (unit : Nat) : State :=
  let t : State := { s with
    masked := if s.masked.contains unit then s.masked else unit :: s.masked
    arbs := tabMapAll (fun _ => {}) (fun p a => a.maskUnit p unit) s.arbs }
  t.locksAbandonWhere (fun u => u.place == unit)

/-- A unit leaves reset: its new requests are arbitrated normally (R436). -/
def State.unmaskUnit (s : State) (unit : Nat) : State := { s with masked := s.masked.filter (fun u => u != unit) }

/-- A requester whose class, rank or quota changed counts a mask that falls on it at once (R431). -/
def Arb.reclass (a : Arb) (p k : Nat) (f : ArbReq → ArbReq) : Arb :=
  let r := a.req p k
  let r' := f r
  Arb.dropPark { a.modReq p k f with qmasks := if r'.qmasked && !r.qmasked then satAdd 65535 a.qmasks 1 else a.qmasks } p

/-- Every count of an arbiter at 0, and the settings written in force (R437, R457). -/
def Arb.restart (a : Arb) (p : Nat) : Arb :=
  let a := (upto (Wf.requesters (Wf.placeClass p))).foldl
    (fun a k => a.modReq p k (fun r => { r with count := 0, quotaLive := r.quota })) a
  { a with shut := false, winMulLive := a.winMul }

/-! ## The commands -/

/-- ARB_REQUEST (R435, R436): a request reaches the arbiter; a masked unit's request does not arise. -/
def execArbRequest (arb req unit : Nat) (s : State) : Out :=
  outcome (Wf.arb arb && Wf.requester arb req && Wf.place unit)
    (whenDo (!s.masked.contains unit) s (s.arbRequest arb req unit))

/-- ARB_DECISION (R428). -/
def execArbDecision (arb : Nat) (s : State) : Out := outcome (Wf.arb arb) (s.arbDecide arb)

/-- ARB_WINDOW_START (R430): every count is set to 0, which lifts every quota mask; a high-class request that waited for it now
revokes a low-class holder (R432). -/
def execArbWindowStart (arb : Nat) (s : State) : Out :=
  outcome (Wf.arb arb) (s.modArb arb (fun a => Arb.yieldHigh
    ((upto (Wf.requesters (Wf.placeClass arb))).foldl (fun a k => a.modReq arb k (fun r => { r with count := 0 })) a) arb))

/-- ARB_GRANT_END (R434, R435, R438): the arbiter parks on its owner while no other requester asks, NOREV of a grant that had it
clears, a run of revocations ends. -/
def execArbGrantEnd (arb : Nat) (s : State) : Out :=
  let a := s.arb arb
  let t := match a.owner with
    | none => s
    | some k => s.modArb arb (fun a => Arb.dropPark
        { a.modReq arb k (fun r => { r with revoked := 0, noRev := r.noRev && !a.grantNoRev }) with
          granted := false, grantNoRev := false } arb)
  outcome (Wf.arb arb) (whenDo a.granted s t)

end Sys2Proof.Machine
end

