-- ==== Sys2Proof/Machine/Recorder.lean ====
section
/-! DEFINITION. The event recorder (16): the input with its rate limit, the FIFO, the writer, freeze and clear, and the
failure of its own memory. -/

namespace Sys2Proof.Machine

/-- Records and FIFO entries the recorder holds (R476, R479). -/
def recMax : Nat := 65536
def fifoMax : Nat := 64
/-- Where the 32-bit counters of Table 16-10 saturate. -/
def max32 : Nat := 2 ^ 32 - 1

/-- EV_STAT.STATE: 0 RECORDING, 1 FROZEN, 2 FULL, 3 FAILED; FAILED shows over FULL, FULL over FROZEN (Table 16-9). -/
def Recorder.stateCode (r : Recorder) : Nat :=
  if r.failed then 3 else if recMax ≤ r.count then 2 else if r.freeze then 1 else 0

/-- The codes marked Held in Table 16-7 (R480). -/
def heldCode (c : Nat) : Bool :=
  [0x0010, 0x0011, 0x0012, 0x0013, 0x0014, 0x0015, 0x0016, 0x0017, 0x0018, 0x0019, 0x010A, 0x0130, 0x0131, 0x0200,
   0x0201, 0x0210, 0x0211, 0x0212, 0x0213, 0x0214, 0x0305, 0x0306, 0x0400, 0x0401, 0x0402].contains c

/-- One record stored (R478): SEQ counts it; a store that fills discards the FIFO into EV_LOST_FULL (R481). -/
def Recorder.storeRecord (r : Recorder) (e : Event) (lost : Bool) : Recorder :=
  let n := r.count + 1
  let full := decide (recMax ≤ n)
  { r with
    store := { ev := e, seq := r.seq } :: r.store
    count := n
    seq := r.seq + 1
    lastLost := lost
    owesLost := false
    lostFull := if full then satAdd max32 r.lostFull r.fifo.length else r.lostFull
    fifo := if full then [] else r.fifo }

/-- The per-code counts of the window of 100,000 CLKT cycles numbered `w` (R479): a new window starts them at 0 and takes
over RATE. -/
def Recorder.openWindow (r : Recorder) (w : Nat) : Recorder :=
  if r.window = w then r else { r with window := w, counts := [], rateNow := r.rate }

/-- One event past the input (R479 stages 1 to 3). -/
def Recorder.accept (r : Recorder) (w : Nat) (e : Event) : Recorder :=
  match r.stateCode with
  | 3 => { r with fsLost := satAdd max32 r.fsLost 1 }
  | 2 => { r with lostFull := satAdd max32 r.lostFull 1 }
  | 1 => { r with lostFrozen := satAdd max32 r.lostFrozen 1, pendFreeze := r.pendFreeze + 1 }
  | _ =>
    let r := r.openWindow w
    let held := heldCode e.code
    let seen := tabGet (fun _ => 0) r.counts e.code
    if !held && decide (r.rateNow ≤ seen) then
      { r with supp := tabMod (fun _ => 0) r.supp e.code (fun v => satAdd max32 v 1) }
    else if r.fifo.length < fifoMax then
      { r with fifo := r.fifo ++ [e]
               counts := if held then r.counts else tabSet (fun _ => 0) r.counts e.code (seen + 1) }
    else if held then { r with held := r.held ++ [e] }
    else
      { r with lostFifo := satAdd max32 r.lostFifo 1, pendLost := r.pendLost + 1
               counts := tabSet (fun _ => 0) r.counts e.code (seen + 1) }

/-- The events at the input in the order in which they enter: held ones first, each kind by ascending SOURCE (R479). -/
def Recorder.atInput (r : Recorder) : List Event :=
  sortBy (fun e => e.source) r.held ++ sortBy (fun e => e.source) r.input

/-- One CLKM cycle of the input: four events enter, the other sources hold theirs (R479 stage 1). -/
def Recorder.inputCycle (r : Recorder) (w : Nat) : Recorder :=
  let all := r.atInput
  (all.take 4).foldl (fun acc e => acc.accept w e) { r with held := all.drop 4, input := [] }

/-- The EV_LOST record with the pending counts (R479 stage 4). -/
def lostEvent (r : Recorder) (now : BitVec 64) : Event :=
  { code := 1, source := srcOf 0x17 0, time := now, p0 := w32 r.pendLost, p1 := w32 r.pendFreeze }

/-- One action of the writer (R479 stage 4): EV_LOST when a pending count is not 0 and the last record was not EV_LOST, or
when an unfreeze owes it (R482); else the FIFO's oldest event. Nothing is stored outside RECORDING. -/
def Recorder.writerCycle (r : Recorder) (now : BitVec 64) : Recorder :=
  if r.stateCode ≠ 0 then r
  else if r.owesLost || ((decide (r.pendLost ≠ 0) || decide (r.pendFreeze ≠ 0)) && !r.lastLost) then
    ({ r with pendLost := 0, pendFreeze := 0 } : Recorder).storeRecord (lostEvent r now) true
  else
    match r.fifo with
    | [] => r
    | e :: rest => ({ r with fifo := rest } : Recorder).storeRecord e false

/-- The state with recorder `r`; a recorder that became FULL sets RECFULL (R481), FAILED is RECFAIL (R487). -/
def State.withRecorder (s : State) (r : Recorder) : State :=
  let t : State := { s with recorder := r }
  let t := if decide (recMax ≤ r.count) && !decide (recMax ≤ s.recorder.count) then t.setAlert 1 true else t
  if r.failed = s.recorder.failed then t else t.setAlert 0 r.failed

/-- A clear of the store: EV_CLEARED with the number of records discarded is its first record (R483). -/
def Recorder.clearStore (r : Recorder) (now : BitVec 64) : Recorder :=
  let e : Event := { code := 2, source := srcOf 0x17 0, time := now, p0 := w32 r.count }
  ({ r with store := [], count := 0, badPos := none } : Recorder).storeRecord e false

/-- An uncorrectable error (R487): FAILED at once, the FIFO discarded and counted; only the first failure since power-up
writes CAUSE, INDEX and the time. -/
def Recorder.fail (r : Recorder) (cause index : Nat) (now : BitVec 64) : Recorder :=
  let first := decide (r.fsCount = 0)
  { r with
    failed := true
    testing := false
    fsCause := if first then cause else r.fsCause
    fsIndex := if first then index else r.fsIndex
    fsTime := if first then now else r.fsTime
    fsCount := satAdd 255 r.fsCount 1
    fsLost := satAdd max32 r.fsLost r.fifo.length
    fifo := []
    badPos := if cause = 2 then r.badPos else some index }

/-- A write of FREEZE (R482): an unfreeze owes EV_LOST as the first record. -/
def Recorder.setFreeze (r : Recorder) (v : Bool) : Recorder :=
  { r with freeze := v, owesLost := r.owesLost || (r.freeze && !v) }

/-- A write of CLEAR 1 outside RECORDING (R483, R487): a FAILED recorder starts its SRAM test. -/
def Recorder.clear (r : Recorder) (now : BitVec 64) : Recorder :=
  if r.failed then { r with testing := true } else r.clearStore now

/-- What a package reset does to the recorder (R547): the store, SEQ, the pending counts and the failsafe set are kept. -/
def Recorder.packageReset (r : Recorder) : Recorder :=
  { store := r.store, count := r.count, seq := r.seq
    pendLost := r.pendLost + r.fifo.length, pendFreeze := r.pendFreeze
    failed := r.failed, testing := r.failed, badPos := r.badPos
    fsCause := r.fsCause, fsIndex := r.fsIndex, fsCount := r.fsCount, fsTime := r.fsTime, fsHi := r.fsHi, fsLost := r.fsLost }

/-! ## The commands -/

/-- EVENT_INPUT (R479): the input accepts up to four events. -/
def execEventInput (s : State) : Out :=
  outcome true (s.withRecorder (s.recorder.inputCycle (s.windowNo winMs)))

/-- EVENT_WRITE (R479): the writer acts once. -/
def execEventWrite (s : State) : Out :=
  outcome true (s.withRecorder (s.recorder.writerCycle s.now))

/-- RECORDER_UE (R487): cause 1 a Transom read, 2 a FIFO take, 3 the scrub; position of the record or FIFO entry. -/
def execRecorderUe (cause index : Nat) (s : State) : Out :=
  outcome (Wf.cause cause && Wf.index index) (s.withRecorder (s.recorder.fail cause index s.now))

/-- RECORDER_SCRUB (R486): corrected errors are counted in EV_CORR; a position that cannot be corrected fails (R487). -/
def execRecorderScrub (corrected : Nat) (failing : Option Nat) (s : State) : Out :=
  let r := { s.recorder with corr := satAdd max32 s.recorder.corr corrected }
  let r := match failing with
    | none => r
    | some i => r.fail 3 (i % recMax) s.now
  outcome true (s.withRecorder r)

/-- SRAM_TEST_DONE (R487): the test that a CLEAR or a reset started ends. -/
def execSramTestDone (passed : Bool) (s : State) : Out :=
  let r := s.recorder
  let t := if passed then
      s.withRecorder (({ r with failed := false, testing := false } : Recorder).clearStore s.now)
    else s.withRecorder { r with testing := false, fsCount := satAdd 255 r.fsCount 1 }
  outcome true (whenDo r.testing s t)

end Sys2Proof.Machine
end

