-- ==== Sys2Proof/Machine/Message.lean ====
section
/-! DEFINITION. Fields of a message (Table 4-1) and access classes (Table 5-3). -/

namespace Sys2Proof.Machine

/-- The head field of `n` octets at `off`; an octet beyond the message reads 0 (R116). -/
def headAt (m : Octets) (off n : Nat) : Nat := beNat (slice (fitTo 40 m) off n)

def msgOpcode (m : Octets) : Nat := headAt m 6 1
def msgFlags (m : Octets) : Nat := headAt m 7 1
def msgNsid (m : Octets) : Nat := headAt m 8 2 % 4096
def msgKeyLen (m : Octets) : Nat := headAt m 10 1
def msgP0 (m : Octets) : Nat := headAt m 12 8
def msgP1 (m : Octets) : Nat := headAt m 20 8
def msgP2 (m : Octets) : Nat := headAt m 28 8
def msgP3 (m : Octets) : Nat := headAt m 36 4
def msgKey (m : Octets) : Octets := slice m 40 (msgKeyLen m)
def msgData (m : Octets) : Octets := m.drop (40 + msgKeyLen m)

/-- The message names a key it holds whole, and so has hashes (R116). -/
def msgHasStem (m : Octets) : Bool := decide (msgKeyLen m ≠ 0) && decide (40 + msgKeyLen m ≤ m.length)

/-- Access classes of Table 5-3. -/
def clsOread : Nat := 0
def clsOwrite : Nat := 1
def clsSread : Nat := 2
def clsSwrite : Nat := 3
def clsSpan : Nat := 4
def clsNone : Nat := 5

/-- The class writes (OWRITE or SWRITE). -/
def clsWrites (c : Nat) : Bool := decide (c = 1) || decide (c = 3)

/-- The class searches the selection table (SREAD or SWRITE). -/
def clsSelects (c : Nat) : Bool := decide (c = 2) || decide (c = 3)

def Cmd.nsid (c : Cmd) : Nat := msgNsid c.msg
def Cmd.opcode (c : Cmd) : Nat := msgOpcode c.msg
def Cmd.die (c : Cmd) : Nat := c.region / 4

end Sys2Proof.Machine
end

