-- ==== Sys2Proof/Machine/Rows.lean ====
section
/-! DEFINITION. Selection rows (R239 to R248): layout, the search in stepping order, cursors, free rows. Rows are named by
global entry index. -/

namespace Sys2Proof.Machine

/-- Rows of a bank and entries of the table (R239). -/
def rowsPerBank : Nat := 262144
def bankOf (index : Nat) : Nat := index / rowsPerBank

/-- The selection-bank arbiter of bank b. -/
def bankPlace (b : Nat) : Nat := placeOf (b / 4 + 1) (b % 4) 0 0x06 0

def bankArb (b : Nat) : Nat := placeOf (b / 4 + 1) (b % 4) 0 0x0E 0

/-- CHECK over bits [176:0]: 0 for the all-0 row (R255). -/
def rowCheck (v : BitVec 177) : BitVec 9 := if v = 0 then 0 else Config.rowCheckCode v

/-- A valid row (Table 8-1). -/
def packRow (reqmask stem : W64) (prio : Nat) (handle : W32) : BitVec 186 :=
  let v : BitVec 177 := BitVec.ofNat 177 (reqmask.toNat + stem.toNat * 2 ^ 64 + prio % 65536 * 2 ^ 128 +
    handle.toNat * 2 ^ 144 + 2 ^ 176)
  BitVec.ofNat 186 (v.toNat + (rowCheck v).toNat * 2 ^ 177)

def rowReq (r : BitVec 186) : W64 := w64 (bitsOf r.toNat 0 64)
def rowStem (r : BitVec 186) : W64 := w64 (bitsOf r.toNat 64 64)
def rowPrio (r : BitVec 186) : Nat := bitsOf r.toNat 128 16
def rowHandle (r : BitVec 186) : W32 := w32 (bitsOf r.toNat 144 32)
def rowValid (r : BitVec 186) : Bool := r.toNat.testBit 176
def rowCheckField (r : BitVec 186) : BitVec 9 := BitVec.ofNat 9 (bitsOf r.toNat 177 9)

def Sel.row (t : Sel) (i : Nat) : BitVec 186 := tabGet (fun _ => 0) t.rows i
def Sel.copy (t : Sel) (i : Nat) : BitVec 186 := tabGet (fun _ => 0) t.copies i

/-- A row written or cleared with its copy (R253): the end of the three steps. -/
def Sel.setRow (t : Sel) (i : Nat) (r : BitVec 186) : Sel :=
  { t with rows := tabSet (fun _ => 0) t.rows i r, copies := tabSet (fun _ => 0) t.copies i r }

def Sel.setBits (t : Sel) (i : Nat) (r : BitVec 186) : Sel := { t with rows := tabSet (fun _ => 0) t.rows i r }

/-- A row matches stem S and capabilities C (R243). -/
def rowMatches (stem caps : W64) (r : BitVec 186) : Bool :=
  rowValid r && decide (rowStem r = stem) && decide (rowReq r &&& ~~~caps = 0)

/-- The rows that match, as (priority, index, handle), in stepping order (R244, R245). -/
def Sel.matching (t : Sel) (stem caps : W64) : List (Nat × Nat × W32) :=
  let ms := (t.rows.filter (fun e => rowMatches stem caps e.2)).map (fun e => (rowPrio e.2, e.1, rowHandle e.2))
  sortBy (fun m => (65535 - m.1) * 2 ^ 22 + m.2.1) ms

/-- Position (p, i) comes after (p', i') (R245). -/
def stepsAfter (p i p' i' : Nat) : Bool := decide (p < p') || (decide (p = p') && decide (i' < i))

/-- A cursor at a position (Table 8-3). -/
def cursorOf (prio index slot : Nat) : W64 := w64 (prio + index * 2 ^ 16 + slot * 2 ^ 38 + 2 ^ 63)

/-- The match record (Table 6-11). -/
def matchRecord (handle : W32) (prio : Nat) (multi : Bool) (cursor : W64) : Octets :=
  leOctets 8 (handle.toNat + prio * 2 ^ 32 + bit01 multi * 2 ^ 48) ++ leOctets 8 cursor.toNat

/-- The allocator marks a row taken or free (R253). -/
def Sel.mark (t : Sel) (i : Nat) (b : Bool) : Sel := { t with used := tabSet (fun _ => false) t.used i b }

/-- Rows that SADD cannot take: taken by an entry, or reserved (R250). -/
def Sel.taken (t : Sel) (i : Nat) : Bool := tabGet (fun _ => false) t.used i || t.reserved.any (fun e => e.1 == i)

/-- Store die d takes the master's messages: the EPOCH they carry is that of the latest grant it received (R462). -/
def State.heeds (s : State) (d : Nat) : Bool := decide ((s.die d).grant = s.lease.epoch)

/-- A die holds the lease, and no die of the cascade discards its messages: the allocator runs, and searches resolve (R249, R262,
R462). -/
def State.allocRuns (s : State) : Bool :=
  decide (s.lease.state = LeaseSt.held) && (upto 4).all (fun d => !(s.die d).online || !(s.die d).cascade || s.heeds d)

/-- The lowest free row of bank b. -/
def Sel.freeRow (t : Sel) (b : Nat) : Option Nat :=
  leastFrom rowsPerBank (b * rowsPerBank) (fun i => !t.taken i)

/-- The row that a new entry of stem S takes: from its home bank onward, retired banks skipped (R250). -/
def Sel.place (t : Sel) (stem : W64) : Option Nat :=
  (upto 16).findSome? (fun k =>
    let b := (bitsOf stem.toNat 0 4 + k) % 16
    if (tabGet (fun _ => {}) t.banks b).retired then none else t.freeRow b)

/-- The entry of a stem with an equal REQMASK and handle, by the copies, which no row error changes (log 104). -/
def Sel.same (t : Sel) (reqmask stem : W64) (handle : W32) : Option Nat :=
  (t.copies.find? (fun e => rowValid e.2 && decide (rowStem e.2 = stem) && decide (rowReq e.2 = reqmask) &&
    decide (rowHandle e.2 = handle))).map (fun e => e.1)

/-- The indices of a stem's entries with a handle. -/
def Sel.ofHandle (t : Sel) (stem : W64) (handle : W32) : List Nat :=
  (t.copies.filter (fun e => rowValid e.2 && decide (rowStem e.2 = stem) && decide (rowHandle e.2 = handle))).map (fun e => e.1)

/-- The rows that a handle search finds (R252). -/
def Sel.handleRows (t : Sel) (h : W32) : List (Nat × BitVec 186) :=
  t.rows.filter (fun e => rowValid e.2 && decide (rowHandle e.2 = h))

/-- The row that a change of a record from another executor is about, when every lower list has been applied (R250). -/
def Sel.rowFor (t : Sel) (reqmask stem : W64) (handle : W32) : Option Nat :=
  match t.same reqmask stem handle with
  | some i => some i
  | none => t.place stem

/-- A selection change (R249, R252). -/
def Sel.change (t : Sel) : SelChange → Sel
  | .write i reqmask stem prio handle => (t.setRow i (packRow reqmask stem prio handle)).mark i true
  | .remove i => (t.setRow i 0).mark i false
  | .removeHandle h => (t.handleRows h).foldl (fun t e => (t.setRow e.1 0).mark e.1 false) t
  | .put reqmask stem prio handle => (match t.rowFor reqmask stem handle with
    | some i => (t.setRow i (packRow reqmask stem prio handle)).mark i true
    | none => t)
  | .drop reqmask stem handle => (match t.same reqmask stem handle with
    | some i => (t.setRow i 0).mark i false
    | none => t)

/-- A change that needs a handle search. -/
def SelChange.searches : SelChange → Bool
  | .write _ _ _ _ _ | .remove _ | .put _ _ _ _ | .drop _ _ _ => false
  | .removeHandle _ => true

/-- The SELROW items of a change, with the store die of each: the rows as the change leaves them (R333). -/
def SelChange.items (q : Sel) (c : SelChange) : List (Nat × EffItem) :=
  let gone (i : Nat) : Nat × EffItem :=
    let r := q.copy i
    (bankOf i / 4, .selrow i (rowReq r) (rowStem r) (rowPrio r) (rowHandle r) false)
  match c with
  | .write i rm st pr h => [(bankOf i / 4, .selrow i rm st pr h true)]
  | .remove i => [gone i]
  | .removeHandle h => (q.handleRows h).map (fun e => gone e.1)
  | .put rm st pr h => ((q.rowFor rm st h).map (fun i => (bankOf i / 4, EffItem.selrow i rm st pr h true))).toList
  | .drop rm st h => ((q.same rm st h).map gone).toList

/-- The SELROW items of a list, each change seen after the changes before it. -/
def listItems : List SelChange → Sel → List (Nat × EffItem)
  | [], _ => []
  | c :: rest, q => c.items q ++ listItems rest (q.change c)

/-- The allocator has applied every list below commit number n (R250). -/
def Sel.appliedBelow (t : Sel) (n : Nat) : Bool := t.stream.all (fun e => decide (n ≤ e.1))

end Sys2Proof.Machine
end

