-- ==== Sys2Proof/Machine/Store.lean ====
section
/-! DEFINITION. A store die's objects: handles and directory entries (R50, R51), key records (R49), map runs (R302, R303),
the saggar's value area (R329, R330), reading values (R34, R48, R211), and applying an invocation's staged changes (R172,
R204 to R214). -/

namespace Sys2Proof.Machine

/-! ## Handles, entries, pending puts -/

/-- Octets of a chunk (R48). -/
def chunkSize : Nat := 65536

/-- Chunks of a value of `len` octets (R48, R295). -/
def chunksOf (len : Nat) : Nat := max 1 (ceilDiv len chunkSize)

/-- Table 2-3. -/
def handleOf (gen die slot : Nat) : W32 := w32 (gen % 15 * 2 ^ 28 + die * 2 ^ 26 + slot)
def handleSlot (h : W32) : Nat := field h 0 26
def handleDie (h : W32) : Nat := field h 26 2
/-- "No object". -/
def noHandle : W32 := 0xFFFFFFFF#32

/-- The part handle of a put serial (R335). -/
def partHandle (serial : Nat) : W32 := w32 (0xF0000000 + serial)

def Die.entry (d : Die) (slot : Nat) : DirEntry := tabGet (fun _ => {}) d.dir slot

def Die.setEntry (d : Die) (slot : Nat) (e : DirEntry) : Die := { d with dir := tabSet (fun _ => {}) d.dir slot e }

/-- STATE 1 or 2. -/
def DirEntry.held (e : DirEntry) : Bool := decide (e.state = 1) || decide (e.state = 2)

def DirEntry.live (e : DirEntry) : Bool := decide (e.state = 1)

/-- The entry that a handle names, in STATE 1 or 2. -/
def Die.byHandle (d : Die) (h : W32) : Option DirEntry :=
  let e := d.entry (handleSlot h)
  if e.held && decide (e.handle = h) then some e else none

/-- The live object that a handle names. -/
def Die.liveBy (d : Die) (h : W32) : Option DirEntry :=
  match d.byHandle h with
  | some e => if e.live then some e else none
  | none => none

/-- The candidates of a key hash in a namespace, in ascending SLOT order (R202). -/
def Die.candidates (d : Die) (hash : W64) (ns : Nat) : List DirEntry :=
  (d.dir.filter (fun e => e.2.held && decide (e.2.keyHash = hash) && decide (e.2.nsid = ns))).map (fun e => e.2)

/-- The candidate whose key equals `key` (R52). -/
def Die.findKey (d : Die) (hash : W64) (ns : Nat) (key : Octets) : Option DirEntry :=
  (d.candidates hash ns).find? (fun e => decide (e.key = key))

def Die.put? (d : Die) (id : Nat) : Option Pending := tabGet (fun _ => none) d.puts id

def Die.setPut (d : Die) (id : Nat) (p : Option Pending) : Die := { d with puts := tabSet (fun _ => none) d.puts id p }

/-- Every pending put of the die, in ascending PUTID. -/
def Die.allPuts (d : Die) : List Pending := d.puts.filterMap (fun e => e.2)

/-- The pending puts of a key. -/
def Die.putsOf (d : Die) (ns : Nat) (key : Octets) : List Pending :=
  d.allPuts.filter (fun p => decide (p.nsid = ns) && decide (p.key = key))

/-- A key record (Table 2-2). -/
def keyRecord (version : Nat) (usermeta : W64) (key : Octets) : Octets :=
  leOctets 8 version ++ leOctets 8 usermeta.toNat ++ [BitVec.ofNat 8 key.length] ++ fitTo 255 key

/-- USERMETA of an entry's key record; in STATE 2 that of its pending put with the lowest PUTID (R49). -/
def Die.metaOf (d : Die) (e : DirEntry) : W64 :=
  if e.live then e.usermeta
  else match d.putsOf e.nsid e.key with
    | p :: _ => p.usermeta
    | [] => e.usermeta

/-- The key record of an entry; VERSION 0 in STATE 2 (R49). -/
def Die.recordOf (d : Die) (e : DirEntry) : Octets := keyRecord (if e.live then e.version else 0) (d.metaOf e) e.key

/-- The lowest missing chunk of a pending put (Table 6-9). -/
def Pending.missing (p : Pending) : Option Nat :=
  if p.length = 0 then none else leastBelow (ceilDiv p.length chunkSize) (fun i => !p.held.contains i)

/-- A pending-put record (Table 6-9). -/
def Pending.octets (p : Pending) : Octets :=
  let missing := match p.missing with
    | some i => i
    | none => 0xFFFFFF
  leOctets 8 p.keyHash.toNat ++ leOctets 8 (p.length % 2 ^ 48 + p.nsid * 2 ^ 48) ++ leOctets 8 p.putid ++
  leOctets 8 (p.held.length + missing * 2 ^ 24) ++ zeros 24 ++ leOctets 8 p.usermeta.toNat

/-! ## Effect records (R332, Table 11-3) -/

/-- NSID under which a record of a package table, a retirement or a change of the die's own stands: no namespace. -/
def tableNsid : Nat := 4096

/-- Octets of an item, its 4-octet head among them (Table 11-4); entry images as Table 18-6 sizes them (log 26). -/
def EffItem.octets : EffItem → Nat
  | .dirent _ _ => 68
  | .dirfree _ => 8
  | .value _ _ _ => 20
  | .origin _ _ => 12
  | .selrow _ _ _ _ _ _ => 40
  | .runmove _ _ => 12
  | .tableNs _ _ => 16
  | .tableHandler _ _ => 32
  | .tableCred _ _ => 52
  | .tableProg _ _ => 32
  | .tableHkey _ => 28
  | .retire _ _ => 12

/-- LEN of a record: its head and its items, padded to a multiple of 64 octets (Table 11-3). -/
def EffRec.octets (r : EffRec) : Nat := (32 + sumOf (fun i => i.octets) r.items + 63) / 64 * 64

/-- Octets of the effect log's ring (Table 11-1). -/
def logRing : Nat := 16646144

/-- The effect log is full: its ring (Table 11-1) has no room for a record of the greatest length, 65,536 octets (R334,
log 26). -/
def Die.logFull (d : Die) : Bool := decide (logRing < sumOf (fun r => r.octets) d.log + 65536)

/-- A record enters the die's log, in both copies (R332). -/
def Die.logRecord (d : Die) (commit nsid : Nat) (items : List EffItem) : Die :=
  if items = [] then d else { d with log := d.log ++ [{ commit, floor := d.seqNext, nsid, items }] }

/-! ## Runs of the map and places of the saggar and cache -/

/-- The lowest place of `n` units at or above `base` that no used interval (start, length) touches. -/
def lowestGap (base n : Nat) (used : List (Nat × Nat)) : Nat :=
  let ends := base :: (used.map (fun u => u.1 + u.2)).filter (fun p => decide (base ≤ p))
  let fits := ends.filter (fun p => used.all (fun u => decide (p + n ≤ u.1) || decide (u.1 + u.2 ≤ p)))
  fits.foldl min (fits.headD base)

/-- The runs in use: live objects and pending puts (R302). -/
def Die.runs (d : Die) : List (Nat × Nat) :=
  (d.dir.filter (fun e => e.2.live)).map (fun e => (e.2.first, chunksOf e.2.length)) ++
  d.allPuts.map (fun p => (p.first, chunksOf p.length))

/-- Map entries of a run with no media copy (R304). -/
def Die.clearRun (d : Die) (first n : Nat) : Die :=
  { d with map := d.map.filter (fun e => decide (e.1 < first) || decide (first + n ≤ e.1)) }

/-- One run moves from `a` to `b` (R303). -/
def Die.moveRun (d : Die) (a b n : Nat) : Die :=
  let moved := d.map.filter (fun e => decide (a ≤ e.1) && decide (e.1 < a + n))
  let rest := d.map.filter (fun e => decide (e.1 < a) || decide (a + n ≤ e.1))
  { d with
    map := moved.foldl (fun t e => tabSet (fun _ => {}) t (e.1 - a + b) e.2) rest
    dir := tabMapAll (fun _ => {}) (fun _ e => if e.live && e.first == a then { e with first := b } else e) d.dir
    puts := tabMapAll (fun _ => none) (fun _ o => o.map (fun p => if p.first == a then { p with first := b } else p)) d.puts }

/-- A free run of `n` entries exists. -/
def Die.runFits (d : Die) (n : Nat) : Bool := decide (lowestGap 0 n d.runs + n ≤ 2 ^ 32)

/-- RUNMOVE items for the holder of the run at `a`, now at `b` (Table 11-4). -/
def Die.moveItems (d : Die) (a b : Nat) : List EffItem :=
  (d.dir.filter (fun e => e.2.live && decide (e.2.first = a))).map (fun e => EffItem.runmove e.2.handle b) ++
  (d.allPuts.filter (fun p => decide (p.first = a))).map (fun p => EffItem.runmove (partHandle p.serial) b)

/-- The map compacted until a run of `n` fits (R303): runs move toward index 0 in ascending order of FIRST, each move recorded;
the runs in `held`, which a stream descriptor or a media slot names, stay where they are. -/
def Die.compact (d : Die) (commit : Nat) (held : List Nat) (n : Nat) : Die :=
  ((sortBy (fun r => r.1) d.runs).foldl (fun acc r =>
    if acc.1.runFits n then acc
    else if held.contains r.1 || decide (r.1 = acc.2) then (acc.1, r.1 + r.2)
    else ((acc.1.moveRun r.1 acc.2 r.2).logRecord commit tableNsid (acc.1.moveItems r.1 acc.2), acc.2 + r.2)) (d, 0)).1

/-- The lowest free run of `n` entries, after a compaction where none fits (R302, R303). -/
def Die.allocRun (d : Die) (commit : Nat) (held : List Nat) (n : Nat) : Nat × Die :=
  let d := if d.runFits n then d else d.compact commit held n
  (lowestGap 0 n d.runs, d)

/-- 64-octet units of an extent with its key record (R330). -/
def extentUnits (len : Nat) : Nat := 5 + ceilDiv len 64

/-- First unit and units of the value area (Table 11-1). -/
def valueAreaBase : Nat := 0x01000000 / 64
def valueAreaUnits : Nat := 240 * 1048576 / 64

def Extent.units (x : Extent) : Nat :=
  if x.fromBase then 0
  else match x.owner with
  | .image _ _ => 1024
  | .object _ | .part _ | .command _ => extentUnits x.value.length
  | .staged _ => extentUnits chunkSize

/-- The place of a new extent of `units`, when the home part has room (R28, R330). -/
def Die.extentRef (d : Die) (units : Nat) : Option Nat :=
  let p := lowestGap valueAreaBase units (d.extents.map (fun x => (x.ref, x.units)))
  if p + units ≤ valueAreaBase + valueAreaUnits then some p else none

/-- The extent that holds chunk `i` of an owner's current value: the one placed last. -/
def Die.extentFor (d : Die) (o : Owner) (i : Nat) : Option Extent :=
  d.extents.reverse.find? (fun x => decide (x.owner = o) && x.current && decide (x.chunk0 ≤ i) &&
    decide (i < x.chunk0 + chunksOf x.value.length))

/-! ## The entry as DLOOK returns it (Table 2-4) -/

/-- The 64 octets of an entry; `chain` is the CHAIN word, whose value is not specified. -/
def Die.entryOctets (d : Die) (e : DirEntry) (chain : W32) : Octets :=
  let sag := d.extentFor (.object e.handle) 0
  let ref := match sag with
    | some x => x.ref
    | none => 0
  leOctets 8 e.keyHash.toNat ++ leOctets 8 (e.length % 2 ^ 48 + e.nsid * 2 ^ 48 + e.state * 2 ^ 60) ++
  leOctets 8 e.version ++ leOctets 8 (e.first + bit01 sag.isSome * 2 ^ 32 + bit01 e.cached * 2 ^ 33) ++
  leOctets 8 (e.cacheRef + ref * 2 ^ 32) ++ leOctets 8 (e.handle.toNat + e.key.length * 2 ^ 32) ++
  leOctets 8 chain.toNat ++ leOctets 8 (d.metaOf e).toNat

/-! ## Reading values -/

/-- What reading stored octets gives. -/
inductive ReadRes where
  | ok (o : Octets)
  | unreadable
  | unreachable
deriving DecidableEq, Repr

/-- What a programmed slot of the flash gives: a die position with three erasures is offline (R321). -/
def Die.slotRead (d : Die) (pca : Nat) : ReadRes :=
  if 3 ≤ d.erasures (pcaChannel pca / 16) (pcaPos pca) then .unreachable
  else match d.slot pca with
    | none => .unreadable
    | some t => if t.unreadable then .unreadable else .ok t.data

/-- Chunk `i` of a live entry's value, from the saggar, the value cache or the media (R34, R211). -/
def Die.chunkRead (d : Die) (e : DirEntry) (i : Nat) : ReadRes :=
  match d.extentFor (.object e.handle) i with
  | some x =>
    if x.homeGood || x.mirrorGood then .ok (slice x.value ((i - x.chunk0) * chunkSize) chunkSize) else .unreadable
  | none =>
    if e.cached then .ok (slice (tabGet (fun _ => []) d.cache (handleSlot e.handle)) (i * chunkSize) chunkSize)
    else
      let m := tabGet (fun _ => {}) d.map (e.first + i)
      if m.onMedia then d.slotRead m.pca
      else if e.length = 0 then .ok [] else .unreadable

/-- The good octets of a range of chunks from `i`, `n` chunks, and what stopped the reading. -/
def Die.chunksRead (d : Die) (e : DirEntry) (i n : Nat) : Octets × Option ReadRes :=
  match n with
  | 0 => ([], none)
  | k + 1 =>
    match d.chunkRead e i with
    | .ok o =>
      let want := min chunkSize (e.length - i * chunkSize)
      let rest := d.chunksRead e (i + 1) k
      (fitTo want o ++ rest.1, rest.2)
    | bad => ([], some bad)

/-- Octets `off` to `off + len − 1` of a live entry's value, cut at the first octet not readable or not held. -/
def Die.valueRead (d : Die) (e : DirEntry) (off len : Nat) : Octets × Option ReadRes :=
  if len = 0 then ([], none)
  else
    let i := off / chunkSize
    let n := (off + len - 1) / chunkSize + 1 - i
    let r := d.chunksRead e i (min n (chunksOf e.length - i))
    (slice r.1 (off - i * chunkSize) len, r.2)

/-- The whole value of an entry, up to the first octet that does not read. -/
def Die.wholeValue (d : Die) (e : DirEntry) : Octets := (d.valueRead e 0 e.length).1

/-- `len` octets of a value: `base` with the writes over it, in order, each an offset and its octets (R212). -/
def stagedOctets (base : Octets) (len : Nat) (writes : List (Nat × Octets)) : Octets :=
  writes.foldl (fun v w => fitTo (max v.length (w.1 + w.2.length)) (v.take w.1 ++ zeros (w.1 - v.length) ++ w.2 ++
    v.drop (w.1 + w.2.length))) base |> fitTo len

/-! ## Applying staged changes -/

/-- What an application needs to know of the command. -/
structure Actor where
  commit : Nat
  die : Nat
  region : Nat
  keyHash : W64
  stemHash : W64
  nsid : Nat
  key : Octets
  data : Octets
  stagedBase : Option W32
  stagedVal : List (Nat × Octets)
  /-- FIRST of the runs that a stream descriptor or a media slot names (R303). -/
  held : List Nat := []
deriving DecidableEq, Repr

/-- A new extent. -/
def Die.addExtent (d : Die) (x : Extent) : Die := { d with extents := d.extents ++ [x] }

/-- The extents of an owner, dropped. -/
def Die.dropExtents (d : Die) (o : Owner) : Die := { d with extents := d.extents.filter (fun x => decide (x.owner ≠ o)) }

/-- The extents of an owner pass to another as its current value. -/
def Die.ownExtents (d : Die) (a b : Owner) (chunk0 : Nat) : Die :=
  { d with extents := d.extents.map (fun x =>
      if x.owner = a then { x with owner := b, current := true, chunk0 := x.chunk0 + chunk0 } else x) }

/-- Chunks `c` to `c + n − 1` of a pending put are written again: extents that held only them are no longer current, and slots
programmed from the earlier octets and not yet named stay unnamed for good (R334, R336). -/
def Die.supersede (d : Die) (serial c n : Nat) : Die :=
  { d with
    extents := d.extents.filter (fun x => !(decide (x.owner = .part serial) && decide (c ≤ x.chunk0) &&
      decide (x.chunk0 + chunksOf x.value.length ≤ c + n)))
    slots := tabMapAll (fun _ => none) (fun _ o => o.map (fun t =>
      if t.handle = partHandle serial ∧ c ≤ t.chunk ∧ t.chunk < c + n then { t with named := true } else t)) d.slots }

/-- The value of an entry leaves the cache. -/
def Die.uncache (d : Die) (slot : Nat) : Die := { d with cache := tabSet (fun _ => []) d.cache slot [] }

/-- The entry of a handle takes a run for `len` octets: the one it has, unless the chunk count changes or the value is staged
and so has a run of its own; the old run is released after the new one is taken (R302). -/
def Die.runFor (d : Die) (a : Actor) (e : DirEntry) (len : Nat) (staged : Bool) : Nat × Die :=
  if e.live && !staged && decide (chunksOf e.length = chunksOf len) then (e.first, d.clearRun e.first (chunksOf len))
  else
    let r := d.allocRun a.commit a.held (chunksOf len)
    let old := r.2.entry (handleSlot e.handle)
    (r.1, if e.live then r.2.clearRun old.first (chunksOf old.length) else r.2)

/-- Chunk i of the base of a staged value; none there reads no octets. -/
def Die.baseChunk (d : Die) (base : Option W32) (i : Nat) : ReadRes :=
  match base.bind d.liveBy with
  | none => .ok []
  | some b => if b.length ≤ i * chunkSize then .ok [] else d.chunkRead b i

/-- The writes of a staged value to chunk i, by offset in the chunk; no write crosses a chunk (R212). -/
def chunkWrites (writes : List (Nat × Octets)) (i : Nat) : List (Nat × Octets) :=
  (writes.filter (fun w => decide (w.1 / chunkSize = i))).map (fun w => (w.1 % chunkSize, w.2))

/-- The octets of chunk i of a staged value of `len` octets, and whether they read: one not wholly written takes the rest of a base
chunk (R212). -/
def Die.stagedChunk (d : Die) (a : Actor) (len i : Nat) : Octets × Bool :=
  let ws := chunkWrites a.stagedVal i
  let want := min chunkSize (len - i * chunkSize)
  let whole := ws.any (fun w => decide (w.1 = 0) && decide (want ≤ w.2.length))
  match d.baseChunk a.stagedBase i with
  | .ok o => (stagedOctets o want ws, true)
  | _ => (stagedOctets [] want ws, whole)

/-- Unit past the value area: where the reference of chunks that lie in no place of the saggar stands. -/
def noPlace : Nat := valueAreaBase + valueAreaUnits

/-- The extents of a staged value of `len` octets for owner `o`: what it takes from its base, then each written chunk in the
place that its MWRITE took (R212, R330, R336). -/
def Die.stagedExtents (d : Die) (a : Actor) (o : Owner) (len : Nat) : List Extent :=
  let n := chunksOf len
  let written := (upto n).filter (fun i => chunkWrites a.stagedVal i ≠ [])
  let rest := (upto n).filter (fun i => chunkWrites a.stagedVal i = [])
  let one (i : Nat) : Extent :=
    let c := d.stagedChunk a len i
    { ref := noPlace + i, owner := o, nsid := a.nsid, commit := a.commit, chunk0 := i, value := c.1
      homeGood := c.2, mirrorGood := c.2, current := true, fromBase := true }
  let whole : Octets × Option ReadRes := match a.stagedBase.bind d.liveBy with
    | some b => d.valueRead b 0 b.length
    | none => ([], none)
  let base : List Extent :=
    if rest = [] then []
    else if whole.2.isNone then [{ one 0 with value := fitTo len whole.1, homeGood := true, mirrorGood := true }]
    else rest.map one
  base ++ written.map (fun i =>
    match d.extents.find? (fun x => decide (x.owner = .staged a.commit) && decide (x.chunk0 = i)) with
    | some x => { one i with ref := x.ref, fromBase := false }
    | none => match d.extentRef (extentUnits chunkSize) with
      | some p => { one i with ref := p, fromBase := false }
      | none => one i)

/-- A new value of `len` octets from SRC 1 DATA, 2 STAGED or 3 EMPTY for entry `e` (Table 6-10). -/
def Die.newValue (d : Die) (a : Actor) (e : DirEntry) (src len : Nat) (usermeta : W64) : Die :=
  let slot := handleSlot e.handle
  let o : Owner := .object e.handle
  let new := if src = 2 then d.stagedExtents a o len else []
  let r := d.runFor a e len (decide (src = 2))
  let d := (r.2.dropExtents o).uncache slot
  let d := match src with
    | 1 => d.ownExtents (.command a.commit) o 0
    | 2 => let k := d.dropExtents (.staged a.commit)
           { k with extents := k.extents ++ new }
    | _ => d
  d.setEntry slot { e with
    state := 1, length := len, version := a.commit, first := r.1, cached := false, cacheRef := 0, usermeta := usermeta
    origin := none, floor := d.seqNext }

/-- The octets of a STAGED MWRITE enter the home part: the chunk's place is taken with its first write; none where the part has no
room (R28, R212). -/
def Die.placeStaged (d : Die) (commit nsid off : Nat) (data : Octets) : Option Die :=
  let i := off / chunkSize
  let o : Owner := .staged commit
  if d.extents.any (fun x => decide (x.owner = o) && decide (x.chunk0 = i)) then
    some { d with extents := d.extents.map (fun x => if x.owner = o ∧ x.chunk0 = i then
      { x with value := stagedOctets x.value (max x.value.length (off % chunkSize + data.length)) [(off % chunkSize, data)] } else x) }
  else (d.extentRef (extentUnits chunkSize)).map (fun p => d.addExtent
    { ref := p, owner := o, nsid, commit, chunk0 := i, value := stagedOctets [] (off % chunkSize + data.length) [(off % chunkSize, data)] })

/-- The parts of pending put `p` become the value of entry `e` (R139, R206). -/
def Die.takeParts (d : Die) (a : Actor) (e : DirEntry) (p : Pending) : Die :=
  let slot := handleSlot e.handle
  let o : Owner := .object e.handle
  let d := if e.live then d.clearRun e.first (chunksOf e.length) else d
  let d := ((d.dropExtents o).uncache slot).ownExtents (.part p.serial) o 0
  let d := (d.setPut p.putid none).setEntry slot { e with
    state := 1, length := p.length, version := a.commit, first := p.first, cached := false, cacheRef := 0
    usermeta := p.usermeta, origin := some p.serial, floor := d.seqNext }
  { d with originTail := d.originTail ++ [(p.serial, e.handle, d.seqNext)] }

/-- The entry of a handle is freed and the handle released (R50). -/
def Die.freeEntry (d : Die) (e : DirEntry) : Die :=
  let slot := handleSlot e.handle
  let d := if e.live then d.clearRun e.first (chunksOf e.length) else d
  let d := ((d.dropExtents (.object e.handle)).uncache slot).setEntry slot {}
  { d with gens := tabSet (fun _ => 0) d.gens slot ((field e.handle 28 4 + 1) % 15) }

/-- A pending put ends: its chunks are released; an entry in STATE 2 with no pending put left is freed (R140). -/
def Die.endPut (d : Die) (p : Pending) : Die :=
  let d := ((d.clearRun p.first (chunksOf p.length)).dropExtents (.part p.serial)).setPut p.putid none
  if d.putsOf p.nsid p.key = [] then
    (match d.findKey p.keyHash p.nsid p.key with
    | some e => if e.state = 2 then d.freeEntry e else d
    | none => d)
  else d

/-- The next put serial is taken: serials run from 0 to 0x0FFF_FFFE and wrap; past the first 2^24 the next sweep is still to come
(R337). -/
def Die.nextSerial (d : Die) : Die :=
  let n := if d.serialNext = 0x0FFFFFFE then 0 else d.serialNext + 1
  { d with serialNext := n, sweepTo := if n = 2 ^ 24 then 0 else d.sweepTo }

/-- The sweep of the next put serial has ended (R337). -/
def Die.serialSwept (d : Die) : Bool := decide (2 ^ 24 ≤ d.serialNext) || decide (d.serialNext < d.sweepTo)

/-- The apply of a list waits on the die: the effect log is full (R334, log 26), or it would take a put serial whose sweep has not
ended (R337). -/
def Die.applyHeld (d : Die) (staged : List Staged) : Bool :=
  !staged.isEmpty && (d.logFull || (!d.serialSwept && staged.any (fun x => match x with
    | .pend _ _ _ _ => true
    | .ins _ _ _ _ _ _ | .upd _ _ _ _ _ | .del _ | .endPut _ | .part _ _ | .row _ _ _ _ _ _ | .rowDel _ => false)))

/-- Entries of the origin log on the media (R337). -/
def Die.originEntries (d : Die) : List (Nat × W32 × Nat) := d.originLog.flatMap (fun o => o.2)

/-- One staged change on the home die (R204 to R213). Selection rows are not part of it. -/
def Die.applyStaged (d : Die) (a : Actor) : Staged → Die
  | .ins h who src _ len um =>
    d.newValue a { handle := h, keyHash := who.hash, nsid := a.nsid, key := who.key } src len um
  | .pend h who len um =>
    let r := d.allocRun a.commit a.held (chunksOf len)
    let d := r.2.setPut a.commit (some
      { putid := a.commit, keyHash := who.hash, length := len, nsid := a.nsid, usermeta := um, key := who.key
        serial := r.2.serialNext, first := r.1 })
    let d := d.nextSerial
    match h with
    | none => d
    | some h => d.setEntry (handleSlot h) { state := 2, keyHash := who.hash, nsid := a.nsid, handle := h, key := who.key }
  | .upd h src putid len um =>
    match d.byHandle h with
    | none => d
    | some e =>
      match src with
      | 0 =>
        let r := if e.live then (e.first, d) else d.allocRun a.commit a.held (chunksOf len)
        r.2.setEntry (handleSlot h) { e with state := 1, version := a.commit, usermeta := um, length := len, first := r.1 }
      | 4 => (match d.put? putid with
        | some p => d.takeParts a e p
        | none => d)
      | _ => d.newValue a e src len um
  | .del h =>
    match d.byHandle h with
    | none => d
    | some e =>
      let d := (d.putsOf e.nsid e.key).foldl (fun d p =>
        ((d.clearRun p.first (chunksOf p.length)).dropExtents (.part p.serial)).setPut p.putid none) d
      d.freeEntry e
  | .endPut id => (match d.put? id with
    | some p => d.endPut p
    | none => d)
  | .part id chunk =>
    match d.put? id with
    | none => d
    | some p =>
      let n := ceilDiv a.data.length chunkSize
      let new := ((upto n).map (fun i => chunk + i)).filter (fun i => !p.held.contains i)
      let d := ((d.supersede p.serial chunk n).clearRun (p.first + chunk) n).ownExtents (.command a.commit) (.part p.serial) chunk
      d.setPut id (some { p with held := p.held ++ new })
  | .row _ _ _ _ _ _ => d
  | .rowDel _ => d

/-- The selection change of a staged change (R249). A DDEL is one whether or not an entry names the object: its list is not empty
(DESIGN CHOICE, log 103). -/
def Staged.selChange : Staged → Option SelChange
  | .row i rm st pr h _ => some (.write i rm st pr h)
  | .rowDel i => some (.remove i)
  | .del h => some (.removeHandle h)
  | .ins _ _ _ _ _ _ | .pend _ _ _ _ | .upd _ _ _ _ _ | .endPut _ | .part _ _ => none

/-- The state as an invocation sees it: its own staged changes over the committed state (R172, R248). -/
def State.view (s : State) (a : Actor) (staged : List Staged) : State :=
  let t := s.modDie a.die (fun d => staged.foldl (fun d x => d.applyStaged a x) d)
  { t with sel := (staged.filterMap Staged.selChange).foldl (fun q c => q.change c) t.sel }

/-! ## The allocator's records (R333) -/

/-- The allocator's record of a list, in the log of each die that holds its rows (R333). -/
def State.logRows (s : State) (n : Nat) (items : List (Nat × EffItem)) : State :=
  let nsid := match s.cmd? n with
    | some c => c.nsid
    | none => 0
  (upto 4).foldl (fun s d => s.modDie d (fun x =>
    x.logRecord n nsid ((items.filter (fun e => e.1 == d)).map (fun e => e.2)))) s

/-- Lists that ended commands left unapplied are recorded and applied as hold-up or a reset dump begins: a command's changes
take effect as a whole or not at all (R72, log 101). -/
def State.finishLists (s : State) : State :=
  let t := s.sel.stream.foldl (fun s e => match e.2 with
    | some changes =>
      let t := s.logRows e.1 (listItems changes s.sel)
      { t with sel := changes.foldl (fun q c => q.change c) t.sel }
    | none => s) s
  { t with sel := { t.sel with stream := [], reserved := [] } }

/-! ## Counts (R295, R297) -/

/-- Chunks that a die's objects and pending puts count. -/
def Die.chunkCount (d : Die) : Nat := sumOf (fun r => r.2) d.runs

/-- Directory slots in use. -/
def Die.slotCount (d : Die) : Nat := (d.dir.filter (fun e => e.2.held)).length

def Die.putCount (d : Die) : Nat := d.allPuts.length

/-- The net changes of a command (R297). -/
def deltaOf (region : Nat) (before after : Die) : List Delta :=
  let x : Delta := {
    region
    chunks := (after.chunkCount : Int) - before.chunkCount
    slots := (after.slotCount : Int) - before.slotCount
    puts := (after.putCount : Int) - before.putCount }
  if x.chunks = 0 ∧ x.slots = 0 ∧ x.puts = 0 then [] else [x]

/-- The ledger has applied every number below n (R298). -/
def Ledger.appliedBelow (l : Ledger) (n : Nat) : Bool := l.stream.all (fun e => decide (n ≤ e.1))

/-- R298: room for a new object or pending put; `view` is the die as the invocation sees it. -/
def State.hasRoom (s : State) (d region : Nat) (view : Die) (pend newent : Bool) (len : Nat) : Bool :=
  let x := s.die d
  let l := x.ledger
  let grown := view.chunkCount - x.chunkCount
  let slots := l.slots + (view.slotCount - x.slotCount) + (if pend then bit01 newent else 1)
  let puts := l.puts + (view.putCount - x.putCount) + bit01 pend
  decide (slots ≤ 67108864) && decide (puts ≤ 16384) &&
  decide (tabGet (fun _ => 0) l.lcount region + grown + chunksOf len ≤ tabGet (fun _ => 0) l.lcap region)

/-- The slots that other invocations' staged entries hold. -/
def stagedSlots (staged : List Staged) : List Nat :=
  staged.filterMap (fun x => match x with
    | .ins h _ _ _ _ _ => some (handleSlot h)
    | .pend h _ _ _ => h.map handleSlot
    | .upd _ _ _ _ _ | .del _ | .endPut _ | .part _ _ | .row _ _ _ _ _ _ | .rowDel _ => none)

/-- Every invocation's staged slots on store die d. -/
def State.claimedSlots (s : State) (d : Nat) : List Nat :=
  s.eng.ctxs.flatMap (fun e => match e.2 with
    | some v => if e.1 / 1024 = d then stagedSlots v.staged else []
    | none => [])

/-- The handle of a new entry: the lowest free slot, its next GEN (R50, log 14). -/
def State.newHandle (s : State) (d : Nat) (view : Die) : W32 :=
  let claimed := s.claimedSlots d
  let slot := match leastFrom (view.dir.length + claimed.length + 1) 0
      (fun k => !(view.entry k).held && !claimed.contains k) with
    | some k => k
    | none => 0
  handleOf (tabGet (fun _ => 0) view.gens slot) d slot

/-! ## Effect records (R332, R333) -/

/-- The items of the record of an applied list, read from the die after it. -/
def Die.itemsOf (d : Die) (die : Nat) (a : Actor) (staged : List Staged) : List EffItem :=
  let value (h : W32) : List EffItem :=
    match d.byHandle h with
    | none => []
    | some e => .dirent die e ::
      (match e.origin with
      | some n => [.origin h n]
      | none => (d.extents.filter (fun x => decide (x.owner = .object h) && !x.fromBase)).map
          (fun x => .value h x.ref (x.units * 64)))
  staged.flatMap (fun x => match x with
    | .ins h _ _ _ _ _ => value h
    | .upd h _ _ _ _ => value h
    | .del h => [.dirfree h]
    | .part id _ => (match d.put? id with
      | some p => (d.extents.filter (fun e => e.commit == a.commit && decide (e.owner = .part p.serial))).map
          (fun e => .value (partHandle p.serial) e.ref (e.units * 64))
      | none => [])
    | .pend _ _ _ _ => []
    | .endPut _ => []
    | .row _ _ _ _ _ _ => []
    | .rowDel _ => [])

end Sys2Proof.Machine
end

