-- ==== Sys2Proof/Machine/Reset.lean ====
section
/-! DEFINITION. Package reset (R495 to R498, R547) and HOLDUP (R345 to R347): what each keeps, what each ends, and the image
of a die's home part that a dump writes. -/

namespace Sys2Proof.Machine

/-- What a store die keeps through a reset: everything on its flash, and the retirements the media records (R474). -/
def Die.reset (d : Die) : Die :=
  { epochs := d.epochs, images := d.images, journal := d.journal, originLog := d.originLog, originNext := d.originNext
    keys := d.keys, keySeq := d.keySeq, pairs := d.pairs, anchorPair := d.anchorPair, anchorUsed := d.anchorUsed
    channels := tabMapAll (fun _ => {}) (fun _ c => { retired := c.retired }) d.channels
    flash := tabMapAll (fun _ => {}) (fun _ f => { populated := f.populated, failed := f.failed, recorded := f.recorded }) d.flash
    regions := tabMapAll (fun _ => {}) (fun _ r => { eol := r.eol, slcTarget := r.slcTarget }) d.regions
    blocks := d.blocks, slots := d.slots, supers := d.supers, retired := d.retired, ez64 := d.ez64
    unformatted := d.unformatted }

/-- The number of the die's newest completed epoch (Table 11-8). -/
def Die.epochNo (d : Die) : Nat :=
  match d.epochs with
  | [] => 0
  | e :: _ => e.num

/-- The records from LOGTAIL to LOGMIRR (R332, R346): a record goes to both copies in one command, so LOGMIRR is the log's
head. -/
def Die.mirroredLog (d : Die) : List EffRec := d.log

/-- Extents that a list of records names (R346). -/
def namedRefs (rs : List EffRec) : List Nat :=
  rs.flatMap (fun r => r.items.filterMap (fun i => match i with
    | .value _ ref _ => some ref
    | _ => none))

/-- The image that die `n`'s dump writes: the records that both copies hold, the unreleased extents they name (R346), and the
extents of completed writes that are not yet drained, whose records a journal chunk holds already (R33, R72, log 100). -/
def Die.dumpImage (d : Die) (n : Nat) (predump : Bool) : ImageAnchor :=
  let rs := d.mirroredLog
  { die := n, predump, epoch := d.epochNo, commitEnd := d.commitEnd, seqEnd := d.seqEnd, serialNext := d.serialNext
    lastCommit := rs.foldl (fun m r => max m r.commit) 0
    records := rs, logTail := d.logTail, jnext := d.jnext, originTail := d.originTail
    extents := d.extents.filter (fun e => (namedRefs rs).contains e.ref || (e.current && (match e.owner with
      | .object _ | .image _ _ => true
      | .part _ | .command _ | .staged _ => false))) }

/-- Some store die still has a dump to write (R347). -/
def State.dumpsOwed (s : State) : Bool := (upto 4).any (fun d => (s.die d).live && !(s.die d).dumped)

/-- The clock unit through a reset: the root PLL and the time base keep running except under PORST_N (Table 17-5). The
availability counters are sticky (R495). -/
def Clock.packageReset (c : Clock) (keepRunning : Bool) : Clock :=
  { rootLock := keepRunning && c.rootLock, holdover := keepRunning && c.holdover
    tb := if keepRunning then c.tb else 0
    upCycles := c.upCycles, downCycles := c.downCycles, upHi := c.upHi, downHi := c.downHi }

/-- The package enters RESET (Table 17-5). EOL clears only at FORMAT (R449). With `dump`, a store die whose home part is live stays out of reset until its
dump has ended (R496); every other die is in reset at once. -/
def State.enterReset (s : State) (keepRunning dump pkgFault : Bool) : State :=
  let s := if dump then s.finishLists else s
  let owing (d : Nat) : Bool := dump && (s.die d).live
  let dies := (upto 4).foldl (fun t d => tabSet (fun _ => {}) t d
      (if owing d then { s.die d with dumped := false, online := false, inReset := false } else (s.die d).reset)) []
  let fault := pkgFault || s.mode.alertCause.getLsbD 5
  let recd := s.recorder.packageReset
  State.settleAlert
    { pins := s.pins
      clock := s.clock.packageReset keepRunning
      mode := {
        degr := s.mode.degr &&& 0x20#8
        dump := if (upto 4).any owing then .programs else .done
        alertCause := (if fault then 0x20#7 else 0) ||| (if recd.failed then 1#7 else 0) }
      otp := s.otp
      recorder := recd
      net := { wire := s.net.wire }
      dies := dies
      fab := { rec0 := s.fab.rec0, rec1 := s.fab.rec1 }
      tap := s.tap
      answer := s.answer
      draws := s.draws
      pending := s.pending }

/-- Power comes up (R495): the power-on detector clears the sticky set; no dump survives a power loss. -/
def State.powerUp (s : State) : State :=
  let t := s.enterReset false false false
  { t with recorder := {}, clock := {}, mode := { degr := s.mode.degr &&& 0x20#8, dump := .done }
           pins := { t.pins with supplyBad := [], alert := false, thermTrip := false } }

/-- Grants revoked as HOLDUP begins (R432): on flash-channel arbiters an HWRITE grant is an SLC program's data phase. -/
def Arb.holdupRevoke (a : Arb) (p : Nat) : Arb :=
  let slc := decide (Wf.placeClass p = 0x0B) && decide (a.owner = some 4)
  if Wf.placeClass p = 0x0E then a else if a.granted && !slc then a.revoke p true else a

/-- HOLDUP begins (Table 11-9 steps 1 to 4): connections, messages, invocations, locks and stops of functions end; lanes
power down; grants are revoked; busy LUNs are reset. From a reset dump it continues the same dump (R497). -/
def State.enterHoldup (s : State) : State :=
  if s.inReset then { s with mode := { s.mode with mode := .holdup } }
  else
    let t := s.finishLists.toMode .holdup
    let owed := (upto 4).any (fun d => (t.die d).live)
    { t with
      mode := { t.mode with dump := if owed then .programs else .done, fns := [], resetScheduled := false }
      wot := { t.wot with conns := [], term := [], gate := [], aborts := [], outstanding := 0 }
      eng := { t.eng with cmds := [], ctxs := [], mgmt := [], treqs := [], hstaged := [], largeQ := [] }
      net := { t.net with
        lanes := tabMapAll (fun _ => {}) (fun _ l => { l with inService := false, lock := false, retraining := false }) t.net.lanes
        macs := tabMapAll (fun _ => {}) (fun _ m => { m with link := false, rings := [], queues := [], waiting := [], pauseDue := [] }) t.net.macs
        ptpQueue := [] }
      locks := []
      arbs := tabMapAll (fun _ => {}) (fun p a => a.holdupRevoke p) t.arbs
      dies := tabMapAll (fun _ => {}) (fun _ d => { d with
        dumped := false
        slots := tabMapAll (fun _ => none) (fun _ o => match o with
          | some x => if x.verified || x.slc then some x else none
          | none => none) d.slots }) t.dies }

/-- HOLDUP can begin: every mode except RESET, and a reset dump (R345, R497). -/
def State.holdupMayBegin (s : State) : Bool :=
  !decide (s.mode.mode = Mode.holdup) && (!s.inReset || s.dumpRuns)

/-- A reset input or request is taken: ignored during a reset dump and during HOLDUP (R497); RESET stays RESET. -/
def State.resetMayBegin (s : State) : Bool := !s.inReset && !decide (s.mode.mode = Mode.holdup)

/-- All supplies that the monitors watch are in range (R498). -/
def State.suppliesInRange (s : State) : Bool := decide (s.pins.supplyBad = [])

/-- The release conditions of R498. -/
def State.releaseReady (s : State) : Bool :=
  s.inReset && s.pins.porst && s.pins.wrst && s.pins.pfail && s.suppliesInRange && s.clock.rootLock &&
  (upto 4).all (fun d => (s.die d).inReset)

end Sys2Proof.Machine
end

