-- ==== Sys2Proof/Machine/EthOps.lean ====
section
/-! DEFINITION. Shared operations of the MACs (12): presence and width, filters, rings and buffers, flow control, transmit
queues, link state. -/

namespace Sys2Proof.Machine

/-! ## Widths and lanes (R364, R365) -/

/-- WIDTH, MEDIA and AN of a PG_CTRL value. -/
def pgWidth (r : W32) : Nat := field r 0 2
def pgMedia (r : W32) : Nat := field r 2 2
def pgAn (r : W32) : Bool := r.getLsbD 4

/-- The lanes of MAC m at its full width (Table 12-2). -/
def State.fullLanes (s : State) (m : Nat) : List Nat :=
  let g := m / 4
  match pgWidth (s.group g).live with
  | 0 => if m % 4 = 0 then (upto 4).map (fun k => 4 * g + k) else []
  | 1 => if m % 4 < 2 then (upto 2).map (fun k => 4 * g + 2 * (m % 4) + k) else []
  | _ => [m]

/-- The lanes MAC m runs on after narrowing (R365). -/
def State.macLanes (s : State) (m : Nat) : List Nat :=
  let good (l : Nat) : Bool := !(s.lane l).mapped
  match s.fullLanes m with
  | [a, b, c, d] =>
    if good a && good b && good c && good d then [a, b, c, d]
    else if good c && good d then [c, d]
    else if good a && good b then [a, b]
    else ([a, b, c, d].filter good).take 1
  | ls => ls.filter good

/-- The width of a MAC in the coding of WIDTH: 0 four lanes, 1 two, 2 one. -/
def widthCode (lanes : List Nat) : Nat :=
  match lanes.length with
  | 4 => 0
  | 2 => 1
  | _ => 2

/-- The MAC that uses lane l. -/
def State.macOfLane (s : State) (l : Nat) : Nat :=
  match pgWidth (s.group (l / 4)).live with
  | 0 => l / 4 * 4
  | 1 => l / 4 * 4 + l % 4 / 2
  | _ => l

def macSrc (m : Nat) : Nat := srcOf 0x13 m

/-- The group of the MAC is stopped: from the stop until the restart completes (R367). -/
def State.groupStopped (s : State) (g : Nat) : Bool := !decide ((s.fn (g + 1)).state = FnState.running)

/-! ## Settings in force -/

def fcMode (c : MacCfg) : Nat := field c.macCtrl 0 2
def arpEn (c : MacCfg) : Bool := c.macCtrl.getLsbD 2
def garpEn (c : MacCfg) : Bool := c.macCtrl.getLsbD 3
def arpPri (c : MacCfg) : Nat := field c.macCtrl 4 3
def maxFrm (c : MacCfg) : Nat := field c.macCtrl 8 14
def pfcEn (c : MacCfg) (p : Nat) : Bool := c.macFc.getLsbD p
def fcQuanta (c : MacCfg) : Nat := field c.macFc 8 16
def fabEn (c : MacCfg) : Bool := c.fabMac.getLsbD 0

/-- Reset values of RING_CFG, RING_WM and DSCPMAP (Tables 12-9, 12-13, 12-7). -/
def ringCfgReset : W32 := 0x00200004#32
def ringWmReset : W32 := 0x00030060#32
def dscpMapReset (k : Nat) : W32 := w32 (k * 0x11111111)

def ringCfg (c : MacCfg) (p : Nat) : W32 := tabGet (fun _ => ringCfgReset) c.ringCfg p
def ringWm (c : MacCfg) (p : Nat) : W32 := tabGet (fun _ => ringWmReset) c.ringWm p
def ringMin (c : MacCfg) (p : Nat) : Nat := field (ringCfg c p) 0 12
def ringMax (c : MacCfg) (p : Nat) : Nat := field (ringCfg c p) 12 12

/-- The priority of a DSCP (Table 12-7). -/
def dscpPrio (c : MacCfg) (dscp : Nat) : Nat := field (tabGet dscpMapReset c.dscpMap (dscp / 8)) (4 * (dscp % 8)) 3

/-! ## Filters (R370, R371) -/

def filterAt (c : MacCfg) (i : Nat) : BitVec 256 := tabGet (fun _ => 0) c.filter i
def filterEth (e : BitVec 256) : Nat := bitsOf e.toNat 0 48
def filterValid (e : BitVec 256) : Bool := e.getLsbD 48
def filterV4En (e : BitVec 256) : Bool := e.getLsbD 49
def filterV6En (e : BitVec 256) : Bool := e.getLsbD 50
def filterV4 (e : BitVec 256) : BitVec 32 := BitVec.ofNat 32 (bitsOf e.toNat 64 32)
def filterV6 (e : BitVec 256) : BitVec 128 := BitVec.ofNat 128 (bitsOf e.toNat 128 128)

/-- The entry holds address `a` for its IP version. -/
def filterHolds (e : BitVec 256) (a : Addr) : Bool :=
  match a with
  | .v4 v => filterV4En e && decide (filterV4 e = v)
  | .v6 v => filterV6En e && decide (filterV6 e = v)

/-- The lowest valid unicast entry with the address (R372, R382). -/
def unicastOf (c : MacCfg) (a : Addr) : Option (BitVec 256) :=
  ((upto 8).map (filterAt c)).find? (fun e => filterValid e && filterHolds e a)

/-- The address filter (R371). -/
def filterPasses (c : MacCfg) (h : EthHead) (ip : Option IpHead) : Bool :=
  ((upto 16).map (filterAt c)).any (fun e => filterValid e && decide (filterEth e = h.dst) &&
    (match ip with
      | none => true
      | some i => ((upto 16).map (filterAt c)).any (fun f =>
          filterValid f && decide (filterEth f = h.dst) && filterHolds f i.dst)))
  || (decide (h.etype = 0x8808) && decide (h.dst = 0x0180C2000001))
  || (decide (h.etype = 0x0806) && decide (h.dst = 0xFFFFFFFFFFFF) && arpEn c && decide (beAt h.body 6 2 = 1) &&
      (unicastOf c (.v4 (BitVec.ofNat 32 (beAt h.body 24 4)))).isSome)

/-! ## Rings and buffers (R376, R378) -/

/-- Buffers of a frame. -/
def buffersOf (o : Octets) : Nat := ceilDiv o.length 2048

def Mac.ring (x : Mac) (p : Nat) : List RxFrame := tabGet (fun _ => []) x.rings p
def Mac.queue (x : Mac) (p : Nat) : List TxFrame := tabGet (fun _ => []) x.queues p

/-- OCC of a ring (Table 12-10). -/
def Mac.occ (x : Mac) (p : Nat) : Nat := sumOf (fun f => buffersOf f.octets) (x.ring p)

/-- Free buffers that no ring's RINGMIN reserves (R376, PM_STAT.FREEBUF). -/
def State.freeBuf (s : State) : Nat :=
  12288 - sumOf (fun m => if s.macPresent m then
    sumOf (fun p => max ((s.mac m).occ p) (ringMin (s.mac m).live p)) (upto 8) else 0) (upto 128)

/-- Ring p of MAC m may take `n` more buffers (R376). -/
def State.ringTakes (s : State) (m p n : Nat) : Bool :=
  let x := s.mac m
  let occ := x.occ p
  let lo := ringMin x.live p
  let fromPool := n - min n (lo - occ)
  decide (fromPool = 0) || (decide (occ + n ≤ ringMax x.live p) && decide (fromPool ≤ s.freeBuf))

/-! ## Flow control (R385 to R388) -/

/-- Priority p of MAC m after the evaluation of R386. -/
def ringXoff (x : Mac) (poolXoff : Bool) (p : Nat) : Bool :=
  let occ := x.occ p
  let wm := ringWm x.live p
  let old := tabGet (fun _ => false) x.xoff p
  poolXoff || decide (field wm 0 12 ≤ occ) || (old && !decide (occ ≤ field wm 12 12))

/-- One MAC's states evaluated; a change sends one pause frame (R387). -/
def Mac.settle (x : Mac) (poolXoff : Bool) (cycle : Nat) : Mac :=
  let new := (upto 8).map (fun p => (p, ringXoff x poolXoff p))
  let changed := new.filter (fun e => decide (tabGet (fun _ => false) x.xoff e.1 ≠ e.2))
  let xoff := new.foldl (fun t e => tabSet (fun _ => false) t e.1 e.2) x.xoff
  let quanta (on : Bool) : Nat := if on then fcQuanta x.live else 0
  let any := new.any (fun e => e.2)
  let due : List PauseDue := match fcMode x.live with
    | 2 =>
      let ps := (changed.filter (fun e => pfcEn x.live e.1)).map (fun e => (e.1, quanta e.2))
      if ps = [] then [] else [{ pfc := true, prios := ps, cycle }]
    | 1 => if any = x.pauseSent then [] else [{ pfc := false, prios := [(0, quanta any)], cycle }]
    | _ => []
  { x with xoff := xoff, pauseSent := if fcMode x.live = 1 then any else x.pauseSent
           pauseDue := if x.link then x.pauseDue ++ due else x.pauseDue }

/-- The evaluation of R386 over the pool and every present MAC. -/
def State.settleFlow (s : State) : State :=
  let free := s.freeBuf
  let lo := field s.net.poolWm 0 16
  let hi := field s.net.poolWm 16 16
  let pool := decide (free ≤ lo) || (s.net.poolXoff && !decide (hi ≤ free))
  let macs := (upto 128).foldl (fun t m =>
    if s.macPresent m then tabMod (fun _ => {}) t m (fun x => x.settle pool s.clock.cycles) else t) s.net.macs
  { s with net := { s.net with poolXoff := pool, macs := macs } }

/-! ## Transmit (R366, R382, R384) -/

/-- Octets in transmit frame memory (Table 12-4). -/
def State.txMemory (s : State) : Nat :=
  sumOf (fun m => sumOf (fun p => sumOf (fun f => f.octets.length) ((s.mac m).queue p)) (upto 8)) (upto 128)

/-- Queue p of MAC m and the frame memory take a frame of `n` octets (R384). -/
def State.txRoom (s : State) (m p n : Nat) : Bool :=
  decide (((s.mac m).queue p).length < 64) && decide (s.txMemory + n ≤ 20971520)

/-- A frame joins queue p of a MAC. -/
def Mac.push (x : Mac) (p : Nat) (f : TxFrame) : Mac := { x with queues := tabMod (fun _ => []) x.queues p (fun q => q ++ [f]) }

/-- A frame for queue p of MAC m: without room, or behind one that waits, its producer waits (R384); an absent MAC has no queue
(R364). -/
def State.enqueue (s : State) (m p : Nat) (f : TxFrame) : State :=
  if !s.macPresent m then s
  else if s.txRoom m p f.octets.length && (s.mac m).waiting.all (fun w => decide (w.1 ≠ p)) then s.modMac m (fun x => x.push p f)
  else s.modMac m (fun x => { x with waiting := x.waiting ++ [(p, f)] })

/-- The frames that waited for MAC m join their queues, in order, as far as there is room. -/
def State.drainWaiting (s : State) (m : Nat) : State :=
  (s.mac m).waiting.foldl (fun s w => s.enqueue m w.1 w.2) (s.modMac m (fun x => { x with waiting := [] }))

/-- Room has been freed: producers that wait go on (R384). -/
def State.settleTx (s : State) : State :=
  (upto 128).foldl (fun s m => if (s.mac m).waiting = [] then s else s.drainWaiting m) s

/-- Gratuitous ARPs of a MAC, one for each valid unicast entry with V4EN in ascending order (R372). -/
def garps (c : MacCfg) : List Octets :=
  ((upto 8).map (filterAt c)).filterMap (fun e =>
    if filterValid e && filterV4En e then
      let ip := (filterV4 e).toNat
      some (ethPad (ethHeader 0xFFFFFFFFFFFF (filterEth e) none 0x0806 ++ arpPacket 1 (filterEth e) ip 0 ip))
    else none)

/-! ## Link state (R366) -/

/-- A MAC's link comes up: flow control starts at XON, peer timers at 0, gratuitous ARPs are sent, LINK_UP is recorded. -/
def State.linkUp (s : State) (m : Nat) : State :=
  let t := s.modMac m (fun x => { x with
    link := true, trainFailed := false, xoff := [], pauseSent := false, pauseDue := [], paused := [] })
  let c := (t.mac m).live
  let t := if arpEn c && garpEn c then
      (garps c).foldl (fun t o => t.enqueue m (arpPri c) { octets := o }) t
    else t
  t.raise 0x011B (macSrc m) (widthCode (t.macLanes m)) 0 0 0

/-- A MAC's link is lost: cause 1 lane, 2 partner, 3 stop; the group counts it (R366). -/
def State.linkLost (s : State) (m cause : Nat) : State :=
  if (s.mac m).link then
    let t := s.modMac m (fun x => { x with link := false, pauseDue := [] })
    let t := t.modGroup (m / 4) (fun g => { g with linkDown := (g.linkDown + 1) % 2 ^ 64 })
    t.raise 0x011A (macSrc m) cause 0 0 0
  else s

/-- One lane trained: in service, with block lock and the eye it measured (Table 18-18). -/
def State.laneTrained (s : State) (l : Nat) : State :=
  let eye := Config.laneEye s.draws
  ({ s with draws := s.draws + 1 } : State).modLane l (fun x => { x with
    inService := true, lock := true, retraining := false, eyeH := eye.1.toNat, eyeW := eye.2.toNat })

/-- A lane is mapped out: unpowered and out of service, its MAC narrows and negotiates anew (R365). -/
def State.laneMapOut (s : State) (l : Nat) : State :=
  let m := s.macOfLane l
  let t := s.modLane l (fun x => { x with mapped := true, inService := false, lock := false, retraining := false })
  let t := (t.raise 0x0119 (srcOf 0x11 l) 0 0 0 0).setAlert 2 true
  let left := t.macLanes m
  if left = [] ∨ left = s.macLanes m then t else t.raise 0x011C (srcOf 0x12 (m / 4)) (m % 4) (widthCode left) 0 0

end Sys2Proof.Machine
end

