-- ==== Sys2Proof/Machine/Ethernet.lean ====
section
/-! DEFINITION. The commands of the MACs and lanes (12): receiving, pausing, sending, link state, lane faults. -/

namespace Sys2Proof.Machine

/-! ## Receiving (R369, R375) -/

/-- Counter numbers of a MAC (Table 18-14). -/
def rxOctets : Nat := 0
def rxFrames : Nat := 1

/-- Where a frame that passes checks 1 to 9 goes (Table 12-8). -/
inductive RxClass where
  | control
  | arp
  | ptp
  | dropIp
  | fabric
  | wot
  | other
deriving DecidableEq, Repr

/-- WOT and RFP ports in force (Tables 18-12, 13-7). -/
def State.wotPort (s : State) : Nat := field s.wot.cfg 0 16
def State.rfpPort (s : State) : Nat := field s.fab.ctrlLive 16 16

/-- An address of a valid unicast entry of some MAC is a package address (R371). -/
def State.packageAddr (s : State) (m : Nat) (a : Addr) : Bool := (unicastOf (s.mac m).live a).isSome

/-- Classification of a frame received on MAC m (Table 12-8). -/
def State.rxClass (s : State) (m : Nat) (h : EthHead) (ip : Option IpHead) : RxClass :=
  if h.etype = 0x8808 then .control
  else if h.etype = 0x0806 then .arp
  else if h.etype = 0x88F7 then .ptp
  else match ip with
    | none => .other
    | some i =>
      if !ipAccepted i then .dropIp
      else
        let port := beAt i.l4 2 2
        if port = 319 ∨ port = 320 then .ptp
        else if decide (port = s.rfpPort) &&
            (match i.dst with
              | .v6 _ => true
              | .v4 _ => false) then .fabric
        else if decide (port = s.wotPort) && s.packageAddr m i.dst then .wot
        else .other

/-- The priority of a frame (R374). -/
def rxPrio (c : MacCfg) (h : EthHead) (ip : Option IpHead) : Nat :=
  let byDscp := match ip with
    | some i => dscpPrio c i.dscp
    | none => 0
  match h.tag with
  | some (pcp, vid) => if vid = 0 then byDscp else pcp
  | none => byDscp

/-- The check of Table 12-5 that a frame fails first, as the MAC counter that counts it; none when checks 1 to 9 pass. -/
def State.rxCheck (s : State) (m : Nat) (o : Octets) (phyErr : Bool) (h : EthHead) (ip : Option IpHead) : Option Nat :=
  let c := (s.mac m).live
  let whole := o.take (min o.length (maxFrm c + 1))
  if s.groupStopped (m / 4) then some 2
  else if phyErr then some 3
  else if !filterPasses c h ip then some 4
  else if o.length < 64 then some 5
  else if maxFrm c < o.length then some 6
  else if !s.ringTakes m (rxPrio c h ip) (buffersOf whole) then some 7
  else if !fcsOk o then some 8
  else if !h.tagOk then some 9
  else match ip with
    | none => none
    | some i => if !i.headOk then some 10 else if !l4ChecksumOk i then some 11 else none

/-- A pause frame that the mode obeys stops its queues (R388); 14 RX_PAUSE and 15 RX_PFC count every one. -/
def State.obeyPause (s : State) (m : Nat) (body : Octets) : State :=
  let pfc := decide (beAt body 0 2 = 0x0101)
  let pause := decide (beAt body 0 2 = 0x0001)
  let s := if pfc then s.bumpMac m 15 1 else if pause then s.bumpMac m 14 1 else s
  let c := (s.mac m).live
  let set (x : Mac) (p q : Nat) : Mac := { x with paused := tabSet (fun _ => 0) x.paused p q }
  if pause && decide (fcMode c = 1) then
    s.modMac m (fun x => (upto 8).foldl (fun x p => set x p (beAt body 2 2)) x)
  else if pfc && decide (fcMode c = 2) then
    s.modMac m (fun x => (upto 8).foldl (fun x p =>
      if (beAt body 2 2).testBit p && pfcEn c p then set x p (beAt body (4 + 2 * p) 2) else x) x)
  else s

/-- The answer to an accepted ARP request, untagged on queue ARPPRI (R372). -/
def State.arpReply (s : State) (m : Nat) (body : Octets) : State :=
  let c := (s.mac m).live
  let target := beAt body 24 4
  match unicastOf c (.v4 (BitVec.ofNat 32 target)) with
  | none => s
  | some e =>
    if arpEn c && decide (beAt body 6 2 = 1) then
      s.enqueue m (arpPri c) { octets := ethPad (ethHeader (beAt body 8 6) (filterEth e) none 0x0806 ++
        arpPacket 2 (filterEth e) target (beAt body 8 6) (beAt body 14 4)) }
    else s

/-- A frame that passed every check counts in RX_OCTETS and RX_FRAMES (Table 12-15). -/
def State.rxCount (s : State) (m n : Nat) : State := (s.bumpMac m rxOctets n).bumpMac m rxFrames 1

/-- The timestamp of a frame of MAC m, corrected by a signed field of TS_ADJ (R392). -/
def State.stampOf (s : State) (m lo : Nat) : BitVec 64 :=
  s.now + (BitVec.ofNat 16 (field (s.mac m).tsAdj lo 16)).signExtend 64

/-- FRAME_RECEIVE (R369): the checks of Table 12-5 in order, then the destination of Table 12-8. Pause and ARP frames are
consumed here; a TCP segment with a good checksum counts in RX_TCP before R74 drops it (R380). -/
def State.receive (s : State) (m : Nat) (o : Octets) (phyErr : Bool) : State :=
  let h := parseEth (o.take (o.length - 4))
  let ip := parseIp h
  match s.rxCheck m o phyErr h ip with
  | some i => s.bumpMac m i 1
  | none =>
    let hold (t : State) : State :=
      let p := rxPrio (s.mac m).live h ip
      State.settleFlow (t.modMac m (fun x => { x with
        rings := tabMod (fun _ => []) x.rings p (fun r => r ++ [{ octets := o, time := s.stampOf m 16 }]) }))
    match s.rxClass m h ip with
    | .control => (s.rxCount m o.length).obeyPause m h.body
    | .arp => (s.rxCount m o.length).arpReply m h.body
    | .ptp | .fabric | .wot => hold (s.rxCount m o.length)
    | .dropIp =>
      let tcp := match ip with
        | some i => decide (i.proto = 6) && !i.fragment
        | none => false
      (if tcp then s.bumpMac m 13 1 else s).bumpWot 0
    | .other => s.bumpMac m 12 1

/-- FRAME_RECEIVE: only while the MAC's link is up (R366). -/
def execFrameReceive (mac : Nat) (octets : Octets) (phyErr : Bool) (s : State) : Out :=
  outcome (Wf.mac mac) (whenDo (s.macPresent mac && (s.mac mac).link) s (s.receive mac octets phyErr))

/-! ## Pausing -/

/-- A refresh is due: one PFC frame carries every priority that changed or is due in the same cycle (R387). -/
def Mac.refresh (x : Mac) (pfc : Bool) (prio cycle : Nat) : Mac :=
  let one : Nat × Nat := (if pfc then prio else 0, fcQuanta x.live)
  match x.pauseDue.reverse with
  | d :: rest =>
    if pfc && d.pfc && decide (d.cycle = cycle) && d.prios.all (fun e => decide (e.1 ≠ prio)) then
      { x with pauseDue := rest.reverse ++ [{ d with prios := d.prios ++ [one] }] }
    else { x with pauseDue := x.pauseDue ++ [{ pfc, prios := [one], cycle }] }
  | [] => { x with pauseDue := [{ pfc, prios := [one], cycle }] }

/-- PAUSE_REFRESH (R387): the pause frame of a state that stays XOFF is repeated. -/
def execPauseRefresh (mac prio : Nat) (s : State) : Out :=
  let x := s.mac mac
  let pfc := decide (fcMode x.live = 2)
  let due := (pfc && pfcEn x.live prio && tabGet (fun _ => false) x.xoff prio) ||
    (decide (fcMode x.live = 1) && x.pauseSent)
  outcome (Wf.mac mac && Wf.prio prio) (whenDo (x.link && due) s
    (s.modMac mac (fun x => x.refresh pfc prio s.clock.cycles)))

/-- PAUSE_EXPIRY (R388): the pause time of a queue runs out, or of every queue under PAUSE. -/
def execPauseExpiry (mac prio : Nat) (s : State) : Out :=
  outcome (Wf.mac mac && Wf.prio prio) (s.modMac mac (fun x => { x with
    paused := if fcMode x.live = 1 then [] else tabSet (fun _ => 0) x.paused prio 0 }))

/-! ## Sending (R383, R394, R396) -/

/-- A pause frame's octets (R387): Clause 31 PAUSE or PFC, from the MAC's lowest valid unicast entry. -/
def pauseFrame (c : MacCfg) (d : PauseDue) : Octets :=
  let src := match ((upto 8).map (filterAt c)).find? filterValid with
    | some e => filterEth e
    | none => 0
  let body := if d.pfc then
      beOctets 2 0x0101 ++ beOctets 2 (sumOf (fun e => 2 ^ e.1) d.prios) ++
      (upto 8).flatMap (fun p => beOctets 2 (match d.prios.find? (fun e => e.1 == p) with
        | some e => e.2
        | none => 0))
    else beOctets 2 0x0001 ++ beOctets 2 (sumOf (fun e => e.2) d.prios)
  ethPad (ethHeader 0x0180C2000001 src none 0x8808 ++ body)

/-- The PTP message of a device frame: EtherType 0x88F7, or UDP to port 319 or 320. -/
def ptpPayload (o : Octets) : Octets :=
  let h := parseEth o
  match parseIp h with
  | some i => i.l4.drop 8
  | none => h.body

/-- A transmit timestamp stored, or lost at a full queue (R394, R396, Table 12-17). -/
def State.txStamp (s : State) (m q : Nat) (o : Octets) : State :=
  let x := s.mac m
  if 16 ≤ x.tsq.length then
    (s.modMac m (fun x => { x with tsLost := x.tsLost + 1 })).bumpMac m 22 1
  else
    let msg := ptpPayload o
    let e := (s.stampOf m 0).toNat + beAt msg 30 2 * 2 ^ 64 + (beAt msg 0 1 % 16) * 2 ^ 80 +
      (min 15 x.tsLost) * 2 ^ 84 + q * 2 ^ 88 + 2 ^ 91
    s.modMac m (fun x => { x with tsq := x.tsq ++ [BitVec.ofNat 128 e], tsLost := 0 })

/-- A frame leaves MAC m. -/
def State.emit (s : State) (m : Nat) (o : Octets) : State :=
  let f := withFcs o
  let s : State := { s with net := { s.net with wire := (m, f) :: s.net.wire } }
  (s.bumpMac m 17 f.length).bumpMac m 18 1

/-- The queue served next: the highest-numbered one that holds a frame and is not paused (R383). -/
def Mac.nextQueue (x : Mac) : Option Nat :=
  (upto 8).reverse.find? (fun p => decide (x.queue p ≠ []) && decide (tabGet (fun _ => 0) x.paused p = 0))

/-- TX_FRAME_START (R366, R383): pause frames first; a frame at the head of a queue of a down link is discarded. -/
def State.txStart (s : State) (m : Nat) : State :=
  let x := s.mac m
  if x.link then
    match x.pauseDue with
    | d :: rest =>
      let s := s.modMac m (fun x => { x with pauseDue := rest })
      (s.emit m (pauseFrame x.live d)).bumpMac m (if d.pfc then 20 else 19) 1
    | [] =>
      match x.nextQueue with
      | none => s
      | some p =>
        match x.queue p with
        | [] => s
        | f :: rest =>
          let s := s.modMac m (fun x => { x with queues := tabSet (fun _ => []) x.queues p rest })
          let s := s.emit m f.octets
          if f.stamp then s.txStamp m p f.octets else s
  else
    match (upto 8).reverse.find? (fun p => decide (x.queue p ≠ [])) with
    | none => s
    | some p => (s.modMac m (fun x => { x with queues := tabMod (fun _ => []) x.queues p (fun q => q.drop 1) })).bumpMac m 21 1

/-- TX_FRAME_START: a stopped port group holds its queues unchanged (R367). -/
def execTxFrameStart (mac : Nat) (s : State) : Out :=
  outcome (Wf.mac mac) (whenDo (s.macPresent mac && !s.groupStopped (mac / 4)) s (s.txStart mac).settleTx)

/-! ## Links and lanes -/

/-- Lanes train in LINKUP and in every later mode but FORMAT and HOLDUP (R549). -/
def Mode.trains : Mode → Bool
  | .linkup | .mount | .imports | .service | .degraded | .drain | .reprogram => true
  | .reset | .boot | .elect | .format | .holdup => false

/-- LINK_UP (R366). -/
def execLinkUp (mac : Nat) (s : State) : Out :=
  let trained := (s.macLanes mac).all (fun l => (s.lane l).lock)
  outcome (Wf.mac mac) (whenDo
    (s.macPresent mac && !(s.mac mac).link && s.mode.mode.trains && trained && decide (s.macLanes mac ≠ [])) s
    ((s.linkUp mac).settleLinkup))

/-- LINK_DOWN (R366): the partner's loss. -/
def execLinkDown (mac : Nat) (s : State) : Out := outcome (Wf.mac mac) (s.linkLost mac 2)

/-- LANE_TRAINING_DONE (R549, R365): all lanes of the MAC trained and its link comes up; or the training failed, which maps
out a lane whose retrain it was. -/
def execLaneTrainingDone (mac : Nat) (trained : Bool) (s : State) : Out :=
  let lanes := s.macLanes mac
  let t := if trained then
      (lanes.foldl (fun t l => t.laneTrained l) s).linkUp mac
    else
      let bad := lanes.filter (fun l => (s.lane l).retraining)
      let t := bad.foldl (fun t l => t.laneMapOut l) s
      t.modMac mac (fun x => { x with trainFailed := true })
  outcome (Wf.mac mac) (whenDo
    (s.macPresent mac && !(s.mac mac).link && s.mode.mode.trains && decide (lanes ≠ [])) s t.settleLinkup)

/-- LANE_FAULT (R365, R366, Table 16-1): a retrain within the threshold, else the lane is mapped out; a link loss of the MAC that uses
the lane. A lane that a narrowed MAC left is used by none. -/
def execLaneFault (lane cause : Nat) (s : State) : Out :=
  let w := s.windowNo win60s
  let x := s.lane lane
  let n := countIn x.retrains x.window w
  let m := s.macOfLane lane
  let t := if cause = 2 then s.modGroup (lane / 4) (fun g => { g with fecUncorr := (g.fecUncorr + 16) % 2 ^ 64 }) else s
  let t := t.modLane lane (fun x => { x with retrains := n, window := w, lock := false, retraining := true })
  let t := t.raise 0x0118 (srcOf 0x11 lane) n cause 0 0
  let t := if (s.macLanes m).contains lane then t.linkLost m 1 else t
  let t := if 4 ≤ n then t.laneMapOut lane else t
  outcome (Wf.lane lane && Wf.laneCause cause) (whenDo x.inService s (t.maskUnit (placeOf 0 0 0 0x11 lane)))

end Sys2Proof.Machine
end

