-- ==== Sys2Proof/Machine/Rfp.lean ====
section
/-! DEFINITION. RFP messages (R397 to R401): key, header, tag, routes over the link-state database, sending on a fabric MAC,
the ordered streams. -/

namespace Sys2Proof.Machine

/-- The fabric key KF (R398). -/
def State.fabKey (s : State) : Octets :=
  hkdfExpand (hkdfExtract (beOctets 8 s.otp.fabDom.toNat) (beOctets 32 s.otp.rootMgmt.toNat)) (ascii "rfp fabric") 32

/-- Destination fields of Table 13-1: a fabric address, the receiving neighbour, or the package of DSTUID. -/
def dstNeighbour : Nat := 0xFFFF
def dstByUid : Nat := 0xFFFE

/-- A whole message with HOPLIM `hops`; the tag is taken with HOPLIM 0 (R398). -/
def rfpOctets (key : Octets) (type hops dst : Nat) (srcUid : BitVec 64) (srcAddr seq : Nat) (run : BitVec 64)
    (body : Octets) : Octets :=
  let head (h : Nat) : Octets :=
    [BitVec.ofNat 8 (16 + type), 0#8] ++ beOctets 2 h ++ beOctets 2 (48 + body.length) ++ beOctets 2 dst ++
    beOctets 8 srcUid.toNat ++ beOctets 2 srcAddr ++ beOctets 6 seq ++ beOctets 8 run.toNat
  head hops ++ body ++ (hmac256 key (head 0 ++ body)).take 16

/-- SRCADDR of this package. -/
def State.srcAddr (s : State) : Nat := s.fabaddr + (if s.fab.assigned then 0x8000 else 0)

/-! ## Neighbours and routes (R400, R403) -/

def State.nbr? (s : State) (uid : BitVec 64) (mac : Nat) : Option Nbr :=
  s.fab.nbrs.find? (fun n => n.uid == uid && n.mac == mac)

/-- The neighbours that are up, as our own LSA lists them. -/
def State.ownLinks (s : State) : List (BitVec 64 × Nat) :=
  (s.fab.nbrs.filter (fun n => n.isUp)).map (fun n => (n.uid, n.mac))

/-- Our own flags: SELOK, MOUNTED, FILLDONE (Table 13-2). -/
def State.ownFlags (s : State) : Nat :=
  bit01 s.sel.complete + 2 * bit01 s.mode.mounted + 4 * bit01 s.fab.fillDone

/-- SERVE: the global regions this package serves. -/
def State.ownServe (s : State) : BitVec 16 :=
  BitVec.ofNat 16 (sumOf (fun g => if s.globalOffline g || s.positionOffline (g / 4) (g % 4) then 0 else 2 ^ g) (upto 16))

/-- A package of the database lists another. -/
def State.lists (s : State) (a b : BitVec 64) : Bool :=
  if a = Config.uid then (s.ownLinks).any (fun l => l.1 == b)
  else s.fab.lsdb.any (fun l => l.origin == a && l.nbrs.any (fun n => n.1 == b))

/-- A link counts when both ends list it (R403). -/
def State.linked (s : State) (a b : BitVec 64) : Bool := s.lists a b && s.lists b a

/-- Every package in the database, ourselves included. -/
def State.nodes (s : State) : List (BitVec 64) := Config.uid :: (s.fab.lsdb.map (fun l => l.origin)).filter (fun u => u != Config.uid)

/-- Packages within `n` hops of those in `seen`. -/
def State.spread (s : State) : Nat → List (BitVec 64) → List (BitVec 64)
  | 0, seen => seen
  | n + 1, seen => s.spread n (seen ++ (s.nodes.filter (fun v => !seen.contains v && seen.any (fun u => s.linked u v))))

/-- The reachable set (R404, R422). -/
def State.reachable (s : State) : List (BitVec 64) := s.spread s.nodes.length [Config.uid]

/-- Hops from a to b, not through ourselves. -/
def State.hops (s : State) (a b : BitVec 64) : Option Nat :=
  (upto (s.nodes.length + 1)).find? (fun n => (s.spread n [a]).contains b)

/-- The neighbour that starts a shortest path to `uid`, the lowest unique ID on a tie (R400). -/
def State.nextHop (s : State) (uid : BitVec 64) : Option Nbr :=
  let ups := sortBy (fun n => n.uid.toNat) (s.fab.nbrs.filter (fun n => n.isUp && s.linked Config.uid n.uid))
  let dists := ups.filterMap (fun n => (s.hops n.uid uid).map (fun d => (d, n)))
  match sortBy (fun e => e.1) dists with
  | [] => none
  | e :: _ => some e.2

/-! ## Sending -/

/-- CTLQ carries HELLO, LSA, PROPOSE, VOTE and COMMIT, DATAQ the others (R401). -/
def rfpQueue (c : MacCfg) (type : Nat) : Nat := if type ≤ 5 then field c.fabMac 1 3 else field c.fabMac 4 3

/-- A datagram leaves MAC m from filter entry 7 (R397). -/
def State.rfpEmit (s : State) (m eth : Nat) (ip : BitVec 128) (type : Nat) (msg : Octets) : State :=
  let c := (s.mac m).live
  let e := filterAt c 7
  let o := udpFrame eth (filterEth e) none 0 1 (.v6 (filterV6 e)) (.v6 ip) s.rfpPort s.rfpPort msg
  s.enqueue m (rfpQueue c type) { octets := o }

/-- A message to the neighbour `n`. -/
def State.rfpToNbr (s : State) (n : Nbr) (type : Nat) (msg : Octets) : State := s.rfpEmit n.mac n.eth.toNat n.ip type msg

/-- A message of ours to the package `uid`, along its route; one whose destination is not in the database is dropped and counted in
FAB_DROP_HOPS (R400). -/
def State.rfpSend (s : State) (uid : BitVec 64) (type dst seq : Nat) (body : Octets) : State :=
  match s.nextHop uid with
  | none => s.bumpFab 2
  | some n => s.rfpToNbr n type (rfpOctets s.fabKey type 1024 dst Config.uid s.srcAddr seq s.fab.run body)

/-- The next number of our own space (R401). -/
def State.takeOwnSeq (s : State) : Nat × State := (s.fab.ownSeq, { s with fab := { s.fab with ownSeq := s.fab.ownSeq + 1 } })

/-- A message outside the streams to the package `uid`. -/
def State.rfpOwn (s : State) (uid : BitVec 64) (type dst : Nat) (body : Octets) : State :=
  let q := s.takeOwnSeq
  q.2.rfpSend uid type dst q.1 body

/-- The fabric address of a member. -/
def State.addrOf (s : State) (uid : BitVec 64) : Option Nat :=
  match s.fab.gen with
  | none => none
  | some g => (g.members.find? (fun m => m.uid == uid)).map (fun m => m.addr)

/-- The unique ID of a fabric address. -/
def State.uidOf (s : State) (addr : Nat) : Option (BitVec 64) :=
  match s.fab.gen with
  | none => none
  | some g => (g.members.find? (fun m => m.addr == addr)).map (fun m => m.uid)

/-- A peer's streams and RUNs. -/
def State.peer (s : State) (uid : BitVec 64) : Peer :=
  match s.fab.peers.find? (fun p => p.uid == uid) with
  | some p => p
  | none => { uid }

def State.setPeer (s : State) (p : Peer) : State :=
  let known := s.fab.peers.any (fun q => q.uid == p.uid)
  let peers := if known then modFirst (fun q => q.uid == p.uid) (fun _ => p) s.fab.peers else s.fab.peers ++ [p]
  { s with fab := { s.fab with peers := peers } }

/-- A stream message to the package `uid`: numbered, kept until acknowledged, sent (R401). -/
def State.streamSend (s : State) (uid : BitVec 64) (type : Nat) (body : Octets) : State :=
  let p := s.peer uid
  let s := s.setPeer { p with txSeq := p.txSeq + 1, unacked := p.unacked ++ [(p.txSeq, type, body)] }
  match s.addrOf uid with
  | none => s
  | some a => s.rfpSend uid type a p.txSeq body

/-- Octets of one message body. -/
def rfpBody : Nat := 9000 - 48

/-- `o` cut into pieces of at most `n` octets with their offsets; an empty string is one empty piece. -/
def pieces (n : Nat) : Nat → Nat → Octets → List (Nat × Octets)
  | 0, off, o => [(off, o)]
  | k + 1, off, o => if o.length ≤ n then [(off, o)] else (off, o.take n) :: pieces n k (off + n) (o.drop n)

/-- A whole response to the forwarder (R416). -/
def State.sendFwdRsp (s : State) (uid : BitVec 64) (commit : Nat) (o : Octets) : State :=
  let n := rfpBody - 13
  (pieces n (o.length / n) 0 o).foldl (fun s p =>
    let last : Byte := if p.1 + p.2.length = o.length then 1#8 else 0#8
    s.streamSend uid 7 (beOctets 8 commit ++ beOctets 4 p.1 ++ [last] ++ p.2)) s

end Sys2Proof.Machine
end

