-- ==== Sys2Proof/Machine/Repl.lean ====
section
/-! DEFINITION. Writes on the fabric's wire (R414, R419): the replicas of a bucket, and the octets of a REPL or COPY record.
The spec names the items of Table 11-4 and the value octets; their order here, with the key record between, is log 17. -/

namespace Sys2Proof.Machine

/-- The other members that replicate a bucket in the current generation. -/
def State.otherReplicas (s : State) (b : Nat) : List (BitVec 64) :=
  match s.fab.gen with
  | none => []
  | some g => ((replicasOf s.hkeyOctets g b).map (fun m => m.uid)).filter (fun u => u != Config.uid)

/-- One item with its head (Table 11-4). -/
def itemHead (type : Nat) (body : Octets) : Octets := leOctets 2 type ++ leOctets 2 (body.length + 4) ++ body

/-- A row copy (Table 8-2). -/
def rowCopyOctets (r : BitVec 186) : Octets :=
  leOctets 8 (rowReq r).toNat ++ leOctets 8 (rowStem r).toNat ++
  leOctets 8 ((rowHandle r).toNat + rowPrio r * 2 ^ 32 + bit01 (rowValid r) * 2 ^ 48) ++
  leOctets 8 (rowCheckField r).toNat

/-- The object that a staged change is about, as the executor sees it after the change or, for a removal, before it. -/
def Staged.handle? : Staged → Option W32
  | .ins h _ _ _ _ _ | .upd h _ _ _ _ | .del h => some h
  | .row _ _ _ _ h _ => some h
  | .pend _ _ _ _ | .endPut _ | .part _ _ | .rowDel _ => none

/-- The items of a staged list on the wire: `after` is the executor's view, `before` the committed state. -/
def wireItems (before after : State) (die : Nat) (staged : List Staged) : List Octets :=
  staged.filterMap (fun x => match x with
    | .ins h _ _ _ _ _ | .upd h _ _ _ _ =>
      ((after.die die).byHandle h).map (fun e => itemHead 1 ((after.die die).entryOctets e 0))
    | .del h => some (itemHead 2 (leOctets 4 h.toNat))
    | .row i rm st pr h _ => some (itemHead 5 (leOctets 4 i ++ rowCopyOctets (packRow rm st pr h)))
    | .rowDel i =>
      let r := before.sel.copy i
      some (itemHead 5 (leOctets 4 i ++ rowCopyOctets (r &&& BitVec.ofNat 186 (2 ^ 176 - 1))))
    | .pend _ _ _ _ | .endPut _ | .part _ _ => none)

/-- What the wire carries of the object that a staged list changes: namespace, key record, and the value where one is sent. -/
def wireObject (before after : State) (die : Nat) (staged : List Staged) : Nat × Octets × Option Octets :=
  match staged.findSome? Staged.handle? with
  | none => (0, zeros 272, none)
  | some h =>
    match (after.die die).byHandle h with
    | some e =>
      let sends := staged.any (fun x => match x with
        | .ins _ _ _ _ _ _ => true
        | .upd _ src _ _ _ => decide (src ≠ 0)
        | .pend _ _ _ _ | .del _ | .endPut _ | .part _ _ | .row _ _ _ _ _ _ | .rowDel _ => false)
      (e.nsid, (after.die die).recordOf e, if sends then some ((after.die die).wholeValue e) else none)
    | none => match (before.die die).byHandle h with
      | some e => (e.nsid, (before.die die).recordOf e, none)
      | none => (0, zeros 272, none)

/-- A staged list that the fabric carries: parts and pending puts stay with the executor. -/
def Staged.carried : Staged → Bool
  | .ins _ _ _ _ _ _ | .upd _ _ _ _ _ | .del _ | .row _ _ _ _ _ _ | .rowDel _ => true
  | .pend _ _ _ _ | .endPut _ | .part _ _ => false

/-- What VALUE octets a record announces: all ones where it sends none. -/
def noValue : Nat := 2 ^ 32 - 1

/-- A record as REPL and COPY carry it after their own fields: number of items, octets of value, namespace, items, key
record, first value octets; a further message has 0xFFFF for the number of items and only value octets (log 17). These fields are big-endian (R12), the items as Table
11-4 has them. -/
def recordBodies (head : Octets) (items : List Octets) (nsid : Nat) (record : Octets) (value : Option Octets) : List Octets :=
  let v := value.getD []
  let total := match value with
    | some o => o.length
    | none => noValue
  let first := head ++ beOctets 2 items.length ++ beOctets 4 total ++ beOctets 2 nsid ++ items.flatten ++ record
  let room := rfpBody - first.length
  let n := rfpBody - head.length - 2
  (first ++ v.take room) ::
    (if v.length ≤ room then [] else
      (pieces n ((v.length - room) / n) 0 (v.drop room)).map (fun p => head ++ beOctets 2 0xFFFF ++ p.2))

/-- GEN, the executor's commit number and the bucket of a REPL (Table 13-2). -/
def replHead (gen commit bucket : Nat) : Octets := beOctets 8 gen ++ beOctets 8 commit ++ beOctets 2 bucket

/-- GEN in force. -/
def State.genNo (s : State) : Nat :=
  match s.fab.gen with
  | some g => g.num
  | none => 0

/-- The record of a write goes to every other replica of its bucket (R419 step 1). -/
def State.sendRepl (s : State) (commit bucket die : Nat) (view : State) (staged : List Staged) (targets : List (BitVec 64)) :
    State :=
  let obj := wireObject s view die staged
  let bodies := recordBodies (replHead s.genNo commit bucket) (wireItems s view die staged) obj.1 obj.2.1 obj.2.2
  (targets.foldl (fun s u => bodies.foldl (fun s b => s.streamSend u 8 b) s) s).bumpFab 4

/-! ## Reading a record -/

/-- The items of a record: (type, body) pairs. -/
def splitItems : Nat → Octets → List (Nat × Octets)
  | 0, _ => []
  | n + 1, o =>
    let len := leAt o 2 2
    (leAt o 0 2, slice o 4 (len - 4)) :: splitItems n (o.drop len)

/-- Octets that `n` items take. -/
def itemsLength : Nat → Octets → Nat
  | 0, _ => 0
  | n + 1, o => leAt o 2 2 + itemsLength n (o.drop (leAt o 2 2))

/-- The key of a key record. -/
def recordKey (o : Octets) : Octets := slice o 17 (leAt o 16 1)

/-- An entry as the wire carries it, with the key of its record. -/
def entryOfOctets (o : Octets) (key : Octets) : DirEntry :=
  let w1 := leAt o 8 8
  { state := w1 / 2 ^ 60, keyHash := w64 (leAt o 0 8), length := w1 % 2 ^ 48, nsid := w1 / 2 ^ 48 % 4096
    version := leAt o 16 8, handle := w32 (leAt o 40 4), key := key, usermeta := w64 (leAt o 56 8) }

/-- One item read back. -/
def itemOf (key : Octets) (i : Nat × Octets) : Option EffItem :=
  match i.1 with
  | 1 => some (.dirent 0 (entryOfOctets i.2 key))
  | 2 => some (.dirfree (w32 (leAt i.2 0 4)))
  | 5 => some (.selrow (leAt i.2 0 4) (w64 (leAt i.2 4 8)) (w64 (leAt i.2 12 8)) (leAt i.2 24 2) (w32 (leAt i.2 20 4))
      (bitAt (leAt i.2 20 8) 48))
  | _ => none

end Sys2Proof.Machine
end

