-- ==== Sys2Proof/Machine/Commands.lean ====
section
/-! DEFINITION. Commands (02, 04, 05): fields of a message, hashes, steering, the order in which handlers start (R63, R64),
invocations (R162), responses (R118, R170, R178), and the end of a command with what follows it (R172, R176, R219, R249,
R297). -/

namespace Sys2Proof.Machine

/-- The stem of a key: up to the first separator at position 1 or later (R44). -/
def stemOf (sepEn : Bool) (sep : Byte) (key : Octets) : Octets :=
  if sepEn then key.take 1 ++ (key.drop 1).takeWhile (fun b => b != sep) else key

/-- HKEY over a namespace and a string (R45, R200). -/
def State.hkey (s : State) (ns : Nat) (o : Octets) : W64 := sipHash24 s.hkeyOctets (beOctets 2 ns ++ o)

def State.keyHashOf (s : State) (ns : Nat) (key : Octets) : W64 := s.hkey ns key

def State.stemHashOf (s : State) (ns : Nat) (key : Octets) : W64 :=
  let e := s.nsEntry ns
  s.hkey ns (stemOf (nsSepEn e) (nsSep e) key)

/-! ## The handler table (R156, R160) -/

/-- Table 5-4 with the LEN of Table 7-4: CLASS, DSAG, BUDGET, LEN of a default opcode. -/
def factoryRow (op : Nat) : Option (Nat × Bool × Nat × Nat) :=
  match op with
  | 0x01 => some (0, false, 256, 88)
  | 0x02 => some (2, false, 65535, 212)
  | 0x03 => some (1, true, 256, 94)
  | 0x04 => some (1, false, 256, 80)
  | 0x05 => some (1, false, 1024, 92)
  | 0x08 => some (1, false, 256, 96)
  | 0x09 => some (1, true, 256, 84)
  | 0x0A => some (1, false, 1024, 110)
  | 0x0B => some (1, false, 256, 70)
  | 0x10 => some (4, false, 65535, 176)
  | 0x11 => some (4, false, 64, 12)
  | 0x12 => some (4, false, 64, 10)
  | 0x13 => some (5, false, 64, 14)
  | 0x14 => some (5, false, 128, 16)
  | 0x18 => some (3, false, 512, 86)
  | 0x19 => some (3, false, 4096, 78)
  | _ => none

/-- The entry and image of a slot at reset and after FORMAT. -/
def factorySlot (op : Nat) : HSlot :=
  match factoryRow op with
  | none => {}
  | some (cls, dsag, budget, len) =>
    { entry := { valid := true, det := true, cls, dsag, budget, len, imageId := w32 (0x100 + op) }, image := some (.factory op) }

def State.hslot (s : State) (op : Nat) : HSlot := tabGet factorySlot s.eng.handlers op

def State.setHslot (s : State) (op : Nat) (h : HSlot) : State :=
  { s with eng := { s.eng with handlers := tabSet factorySlot s.eng.handlers op h } }

/-! ## Steering (R150 to R152) -/

/-- The engine of a global region that serves engine position `e`: the next one not retired. -/
def State.engineFor (s : State) (region e : Nat) : Option Nat :=
  ((upto 32).map (fun k => region * 32 + (e + k) % 32)).find? (fun n => !(s.engFault n).retired)

/-- The region and engine of a command without a stem hash, or of class SPAN or NONE: the next region in service (R152). -/
def State.steerFrom (s : State) (region e : Nat) : Option (Nat × Nat) :=
  ((upto 16).map (fun k => (region + k) % 16)).findSome? (fun g =>
    if s.globalOffline g then none else (s.engineFor g e).map (fun n => (g, n)))

/-- Region and engine position of a message (R150, R151). -/
def steerOf (hasStem : Bool) (stem : W64) (conn : Nat) : Nat × Nat :=
  if hasStem then (regionOf stem, bitsOf stem.toNat 4 5) else (conn % 16, conn / 16 % 32)

/-! ## Conflicts and starting (R63, R64, R142, R161, R203, R236) -/

/-- Two commands conflict (R63). -/
def Cmd.conflicts (a b : Cmd) : Bool :=
  a.hasStem && b.hasStem && (clsWrites a.entry.cls || clsWrites b.entry.cls) &&
  ((decide (a.nsid = b.nsid) && decide (a.keyHash = b.keyHash)) ||
   ((clsSelects a.entry.cls || clsSelects b.entry.cls) && decide (a.stemHash = b.stemHash)))

/-- The command as conflicts see it: one whose entry is still to come may be of any class (R235). -/
def Cmd.worst (b : Cmd) : Cmd := if b.unbound then { b with entry := { b.entry with cls := 3 } } else b

/-- The command has not ended. -/
def Cmd.open_ (c : Cmd) : Bool :=
  match c.phase with
  | .waitGrant | .queued | .running _ => true
  | .holding | .responding | .forwarded => false

/-- An earlier SPAN command of the namespace that has not ended: it observes none of the later writes (R65, R203). -/
def State.succHolds (s : State) (c : Cmd) : Bool :=
  s.eng.cmds.any (fun b => decide (b.commit < c.commit) && b.open_ && decide (b.nsid = c.nsid) &&
    (b.unbound || decide (b.entry.cls = clsSpan)))

/-- An earlier FENCE of the connection, or a command past its FENCE instruction, that has not sent its final response (R142,
R217). -/
def Cmd.fences (b c : Cmd) : Bool :=
  (b.fenced || decide (b.image = some (.factory 0x12))) && decide (b.conn = c.conn) && decide (b.gen = c.gen) &&
  b.origin.isNone && c.origin.isNone

/-- A stem that its new acting executor has not resolved (R421). -/
def State.stemUnresolved (s : State) (c : Cmd) : Bool := c.hasStem && s.fab.unresolved.contains (bucketOf c.stemHash)

/-- The function holds a command of its unit: stopped or restarting since a lower commit number (R455, R457). -/
def Fn.holds (f : Fn) (commit : Nat) : Bool :=
  match f.state with
  | .running => false
  | .stopping | .stopped | .starting => decide (f.stopAt < commit)

/-- The functions that hold command c: the package, its region, the handler table, the selection table (Table 15-9). -/
def State.fnHolds (s : State) (c : Cmd) : Bool :=
  (s.fn 0).holds c.commit || (s.fn (33 + c.region)).holds c.commit || (s.fn 49).holds c.commit ||
  (clsSelects c.entry.cls && (s.fn 50).holds c.commit)

/-- A KSERASE with a lower commit number has still to remove what the namespace of c holds (R327). -/
def State.keyErasing (s : State) (c : Cmd) : Bool :=
  s.eng.treqs.any (fun r => decide (headAt r.msg 6 2 = 0x0023) && decide (0 < r.commit) && decide (r.commit < c.commit) &&
    decide (nsKeyslot (s.nsEntry c.nsid) = headAt r.msg 16 2))

/-- R64 and the holds named beside it allow the handler of c to start. -/
def State.mayStart (s : State) (c : Cmd) : Bool :=
  s.eng.cmds.all (fun b => !(decide (b.commit < c.commit) &&
    ((decide (b.region = c.region) && b.worst.conflicts c) || b.fences c))) && !c.unbound &&
  !(decide (c.entry.cls = clsOwrite) && s.succHolds c) && !s.fnHolds c && !s.stemUnresolved c && !s.keyErasing c

/-- The queued commands of engine e that may start, the one with the lowest commit number (R161). -/
def State.nextFor (s : State) (e : Nat) : Option Cmd :=
  let ready := s.eng.cmds.filter (fun c => decide (c.engine = e) && decide (c.phase = Phase.queued) && c.entry.valid && s.mayStart c)
  match sortBy (fun c => c.commit) ready with
  | [] => none
  | c :: _ => some c

/-- The state of a handler at its start (Table 5-5). -/
def State.startInv (s : State) (c : Cmd) (image : Image) : Inv :=
  let g3 := msgKeyLen c.msg + msgNsid c.msg * 2 ^ 8 + msgOpcode c.msg * 2 ^ 20 + msgFlags c.msg * 2 ^ 28
  let regs := [(0, if c.hasStem then c.keyHash else 0), (1, if c.hasStem then c.stemHash else 0),
    (2, w64 (headAt c.msg 0 4)), (3, w64 g3)]
  { work := .command c.commit, image, len := c.entry.len, cls := c.entry.cls, dsag := c.entry.dsag
    budget := c.entry.budget, regs := regs.foldl (fun t r => tabSet (fun _ => 0) t r.1 r.2) []
    tag := c.tag, conn := c.conn, commit := c.commit, msg := c.msg, msgLen := headAt c.msg 0 4
    keyHash := if c.hasStem then c.keyHash else 0, stemHash := if c.hasStem then c.stemHash else 0
    start := s.clock.cycles }

/-- Context `x` takes command c. -/
def State.take (s : State) (c : Cmd) (x : CtxId) (v : Inv) : State :=
  (s.setInv x (some v)).modCmd c.commit (fun c => { c with phase := .running x })

/-! ## Responses (R118, R170, R177) -/

/-- A response head (Table 4-2) with OPCODE, TAG and COMMIT as the port die writes them. -/
def rspHead (status opcode rflags tag commit version length offset usermeta d0 d1 : Nat) : Octets :=
  beOctets 2 status ++ [BitVec.ofNat 8 opcode, BitVec.ofNat 8 rflags] ++ beOctets 2 tag ++ zeros 2 ++ beOctets 8 commit ++
  beOctets 8 version ++ beOctets 8 length ++ beOctets 8 offset ++ beOctets 8 usermeta ++ beOctets 8 d0 ++ beOctets 8 d1

/-- A whole response built by the port die for command c. -/
def Cmd.built (c : Cmd) (status d0 : Nat) : List Seg :=
  [.octets (rspHead status c.opcode 0 c.tag c.commit 0 0 0 0 d0 0)]

/-- Octets of a staged output. -/
def segLen : Seg → Nat
  | .octets o => o.length
  | .range _ _ _ n => n

def segsLen (l : List Seg) : Nat := sumOf segLen l

/-- Staged output without its first `n` octets. -/
def dropSegs : Nat → List Seg → List Seg
  | _, [] => []
  | n, .octets o :: rest => if o.length ≤ n then dropSegs (n - o.length) rest else .octets (o.drop n) :: rest
  | n, .range d h off len :: rest =>
    if len ≤ n then dropSegs (n - len) rest else .range d h (off + n) (len - n) :: rest

/-- Octets `off` to `off + n − 1` of staged output, read in state `s`, cut at the first octet not held or not readable. -/
def State.segsRead (s : State) : List Seg → Nat → Nat → Octets × Option ReadRes
  | [], _, _ => ([], none)
  | g :: rest, off, n =>
    if n = 0 then ([], none)
    else if segLen g ≤ off then s.segsRead rest (off - segLen g) n
    else
      let want := min n (segLen g - off)
      let got : Octets × Option ReadRes := match g with
        | .octets o => (slice o off want, none)
        | .range d h from_ _ => match (s.die d).liveBy h with
          | none => ([], some (.ok []))
          | some e =>
            let held := min want (e.length - (from_ + off))
            let r := (s.die d).valueRead e (from_ + off) held
            (r.1, if r.2.isSome then r.2 else if held < want then some (.ok []) else none)
      if got.2.isSome then got
      else
        let more := s.segsRead rest 0 (n - want)
        (got.1 ++ more.1, more.2)

/-- The first `n` octets of staged output. -/
def takeSegs : Nat → List Seg → List Seg
  | _, [] => []
  | n, .octets o :: rest => if o.length ≤ n then .octets o :: takeSegs (n - o.length) rest else [.octets (o.take n)]
  | n, .range d h off len :: rest => if len ≤ n then .range d h off len :: takeSegs (n - len) rest else [.range d h off n]

/-- Staged output under the port die's fields: OPCODE, TAG and COMMIT stand over octets 2, 4 to 5 and 8 to 15 of the head; the rest
is sent as it is staged (R118, R170). -/
def stampHead (c : Cmd) (segs : List Seg) : List Seg :=
  takeSegs 2 segs ++ [.octets [BitVec.ofNat 8 c.opcode]] ++ takeSegs 1 (dropSegs 3 segs) ++ [.octets (beOctets 2 c.tag)] ++
  takeSegs 2 (dropSegs 6 segs) ++ [.octets (beOctets 8 c.commit)] ++ dropSegs 16 segs

/-- A response ready to leave joins the connection's; a connection that has ended discards it (R109). A reply to an ABORT is
held until its target's final response is sent (R145). -/
def State.queueRsp (s : State) (conn gen : Nat) (r : Rsp) : State × Bool :=
  let k := s.conn conn
  let alive := decide (k.gen = gen) && (decide (k.state = ConnState.open) || decide (k.state = ConnState.closing))
  if alive then (s.modConn conn (fun k => { k with rsps := k.rsps ++ [r] }), true) else (s, false)

/-- The older image of a slot goes when no command uses it (R159). -/
def State.releaseImages (s : State) : State :=
  { s with eng := { s.eng with handlers := tabMapAll factorySlot (fun k h => match h.older with
      | none => h
      | some o => if s.eng.cmds.any (fun c => c.open_ && decide (c.opcode = k) && decide (c.image = some o.2) &&
          decide (c.entry.imageId = o.1))
          then h else { h with older := none }) s.eng.handlers } }

/-- A command's final response is sent or discarded: its record, grants and units are released, the outstanding count falls
(R133). -/
def State.finishCmd (s : State) (n : Nat) : State :=
  match s.cmd? n with
  | none => s
  | some _ =>
    let t := s.dropCmd n
    State.releaseImages { t with wot := { t.wot with outstanding := t.wot.outstanding - 1 } }

/-- The tag of the response that the reply of an ABORT waits for (R230). -/
def Cmd.after (c : Cmd) : Option Nat :=
  if c.opcode = 0x13 ∧ c.origin = none ∧ headAt c.msg 20 8 ≠ 0 then some (msgP0 c.msg % 65536) else none

/-- The response of a command that waits for nothing more starts (R416): one that goes to a forwarder is read here, and a cut of it
is recorded under the connection that stands for the forwarder, with RSN 0 (R171, log 109). -/
def State.respond (s : State) (c : Cmd) : State :=
  match c.origin with
  | some o =>
    let got := s.segsRead c.rsp 0 (segsLen c.rsp)
    let t := if got.2.isSome then s.raise 0x0128 (srcOf 0x15 0) c.conn 0 (got.1.length % 2 ^ 32) 0 else s
    let t := (t.sendFwdRsp o.1 o.2 got.1).finishCmd c.commit
    if clsWrites c.entry.cls then { t with fab := { t.fab with fwdDone := t.fab.fwdDone ++ [(o.1, o.2, c.commit)] } } else t
  | none =>
    let r := s.queueRsp c.conn c.gen { tag := c.tag, commit := c.commit, segs := c.rsp, after := c.after }
    if r.2 then r.1.modCmd c.commit (fun c => { c with phase := .responding }) else s.finishCmd c.commit

/-- A command that has ended responds once the allocator, the erase and the replicas let it (R214, R251, R419). -/
def State.settleCmd (s : State) (n : Nat) : State :=
  match s.cmd? n with
  | none => s
  | some c =>
    if decide (c.phase = Phase.holding) && !c.holdAlloc && decide (c.holdErase = []) && !s.fab.waits.any (fun w => w.commit == n)
    then s.respond c else s

/-! ## The end of a command -/

/-- Handles that staged output names. -/
def segHandles (l : List Seg) : List W32 := l.filterMap (fun g => match g with
  | .range _ h _ _ => some h
  | .octets _ => none)

/-- The handle that a media operation names. -/
def MediaOp.handle : MediaOp → Option W32
  | .value h _ _ _ _ | .keyrec h _ | .fill h | .staged h _ _ _ => some h
  | .part _ _ _ | .mdisc _ _ | .msdisc _ => none

/-- Flash addresses that a media operation reads on a store die. -/
def Die.opReads (d : Die) (op : MediaOp) : List Nat :=
  let pcas (h : W32) (i n : Nat) : List Nat := match d.liveBy h with
    | none => []
    | some e => (upto (min n (chunksOf e.length - i))).filterMap (fun k =>
        let m := tabGet (fun _ => {}) d.map (e.first + i + k)
        if m.onMedia && (d.extentFor (.object h) (i + k)).isNone && !e.cached then some m.pca else none)
  match op with
  | .value h c off len _ => pcas h (c + off / chunkSize) ((off + len + chunkSize - 1) / chunkSize)
  | .keyrec h _ => pcas h 0 1
  | .fill h => pcas h 0 (2 ^ 24)
  | .staged _ _ _ _ | .part _ _ _ | .mdisc _ _ | .msdisc _ => []

/-- The LUN that a slot lies on is not in a RESET: operations queued for one that is wait for its end (R276). -/
def Die.lunFree (d : Die) (pca : Nat) : Bool := !(d.flashDie (pcaFlash pca)).resetting

/-- An operation that starts at once is queued for the dies of these slots: they are ACTIVE (Table 9-6, R278). -/
def Die.wakeFlash (d : Die) (pcas : List Nat) : Die :=
  pcas.foldl (fun d p => d.modFlash (pcaFlash p) (fun f => if f.populated && !f.failed then { f with power := .active } else f)) d

/-- FIRST of the runs of store die d that a stream descriptor or a busy media slot names (R303). -/
def State.heldRuns (s : State) (d : Nat) : List Nat :=
  let x := s.die d
  let invs := s.eng.ctxs.filterMap (fun e => e.2)
  let ops := invs.flatMap (fun v => v.slots.filterMap (fun k => match k.2 with
    | .busy op _ => some op
    | .idle | .done _ => none))
  let handles := segHandles (invs.flatMap (fun v => v.out) ++ s.eng.cmds.flatMap (fun c => c.rsp) ++
    s.wot.conns.flatMap (fun e => e.2.rsps.flatMap (fun r => r.segs))) ++ ops.filterMap MediaOp.handle
  (handles.filterMap (fun h => if handleDie h = d then (x.liveBy h).map (fun e => e.first) else none)) ++
  ops.filterMap (fun o => match o with
    | .part id _ _ | .mdisc id _ => (x.put? id.toNat).map (fun p => p.first)
    | .value _ _ _ _ _ | .keyrec _ _ | .fill _ | .staged _ _ _ _ | .msdisc _ => none)

/-- Who a command's changes belong to. -/
def Cmd.actor (c : Cmd) (base : Option W32) (vals : List (Nat × Octets)) : Actor :=
  { commit := c.commit, die := c.die, region := c.region % 4, keyHash := c.keyHash, stemHash := c.stemHash
    nsid := c.nsid, key := msgKey c.msg, data := msgData c.msg, stagedBase := base, stagedVal := vals }

/-- The streams of the ledger and the allocator receive the command's changes (R249, R297). -/
def State.feedStreams (s : State) (c : Cmd) (deltas : List Delta) (changes : List SelChange) : State :=
  let t := s.modDie c.die (fun d => { d with ledger := { d.ledger with
    stream := modFirst (fun e => e.1 == c.commit) (fun e => (e.1, some deltas)) d.ledger.stream } })
  { t with sel := { t.sel with
      stream := modFirst (fun e => e.1 == c.commit) (fun e => (e.1, some changes)) t.sel.stream
      reserved := if changes = [] then t.sel.reserved.filter (fun e => e.2 != c.commit) else t.sel.reserved } }

/-- DATA and staged octets placed for the command and not taken by a change leaves the saggar. -/
def State.dropPlaced (s : State) (c : Cmd) : State :=
  s.modDie c.die (fun d => (d.dropExtents (.command c.commit)).dropExtents (.staged c.commit))

/-- Octets placed in home parts count toward the next epoch of every store die in service (R341). -/
def State.countPlaced (s : State) (n : Nat) : State :=
  let total := s.placedOctets + n
  let s : State := if n = 0 then s else { s with mode := { s.mode with drained := false, drainAsked := false } }
  if total < 2 ^ 36 then { s with placedOctets := total }
  else { s with placedOctets := total - 2 ^ 36
                dies := tabMapAll (fun _ => {}) (fun _ d => if d.online then { d with epochDue := true } else d) s.dies }

/-- Value octets of extents that `after` holds and `before` did not. -/
def newOctets (before after : Die) : Nat :=
  sumOf (fun x => x.value.length) (after.extents.filter (fun x => !before.extents.any (fun y => y.ref == x.ref)))

/-- The staged changes take effect at the commit number, recorded in both saggar copies (R172, R332). -/
def State.applyChanges (s : State) (c : Cmd) (base : Option W32) (vals : List (Nat × Octets)) (staged : List Staged) : State :=
  let a : Actor := { c.actor base vals with held := s.heldRuns c.die }
  let before := s.die c.die
  let after := staged.foldl (fun d x => d.applyStaged a x) before
  let t := s.modDie c.die (fun _ => after.logRecord c.commit c.nsid (after.itemsOf c.die a staged))
  ((t.feedStreams c (deltaOf (c.region % 4) before after) (staged.filterMap Staged.selChange)).dropPlaced c).countPlaced
    (newOctets before after)

/-- A command's record holds its response; it waits for what holds it back. -/
def State.holdRsp (s : State) (c : Cmd) (segs : List Seg) (alloc : Bool) (erase : List Nat) (large : Bool) : State :=
  State.settleCmd (s.modCmd c.commit (fun c =>
    { c with phase := .holding, rsp := segs, holdAlloc := alloc, holdErase := erase, large := large })).releaseImages c.commit

/-- A command ends with its staged changes discarded (R176). -/
def State.endDiscard (s : State) (c : Cmd) (segs : List Seg) (large : Bool) : State :=
  ((s.feedStreams c [] []).dropPlaced c).holdRsp c segs false [] large

/-- Superblock slots that an applied list unmapped and that still hold octets: what an SDISCARD still erases (R214). -/
def unmappedSlots (before after : Die) : List Nat :=
  ((before.map.filter (fun e => e.2.onMedia && !(after.map.any (fun f => f.2.onMedia && f.2.pca == e.2.pca)))).map
    (fun e => e.2.pca))

/-- A command ends with its changes applied: at once, or after every other replica of its bucket has prepared them (R419). -/
def State.endApply (s : State) (c : Cmd) (base : Option W32) (vals : List (Nat × Octets)) (staged : List Staged)
    (segs : List Seg) (erased large : Bool) : State :=
  let others := if c.hasStem then s.otherReplicas (bucketOf c.stemHash) else []
  let carried := staged.filter Staged.carried
  if carried = [] ∨ others = [] then
    let t := s.applyChanges c base vals staged
    let erase := if erased then unmappedSlots (s.die c.die) (t.die c.die) else []
    t.holdRsp c segs (decide (staged.filterMap Staged.selChange ≠ [])) erase large
  else
    let view := s.view (c.actor base vals) staged
    let t := s.sendRepl c.commit (bucketOf c.stemHash) c.die view carried others
    let w : WriteWait := { commit := c.commit, bucket := bucketOf c.stemHash, waiting := others, staged, base, vals, segs
                           erase := if erased then [1] else [] }
    State.holdRsp { t with fab := { t.fab with waits := t.fab.waits ++ [w] } } c segs false [] large

/-- A write whose replicas have all prepared it is applied (R419 step 3). -/
def State.settleWait (s : State) (n : Nat) : State :=
  match s.fab.waits.find? (fun w => w.commit == n), s.cmd? n with
  | some w, some c =>
    if w.waiting = [] then
      let t : State := { s with fab := { s.fab with waits := s.fab.waits.filter (fun w => w.commit != n)
                                                    marks := s.fab.marks ++ (s.otherReplicas w.bucket).map (fun u => (u, n, w.bucket)) } }
      let u := t.applyChanges c w.base w.vals w.staged
      let erase := if w.erase = [] then [] else unmappedSlots (s.die c.die) (u.die c.die)
      u.holdRsp c w.segs (decide (w.staged.filterMap Staged.selChange ≠ [])) erase c.large
    else s
  | _, _ => s

/-- A write that cannot be completed with its replicas ends with UNREACHABLE (R420). -/
def State.failWait (s : State) (n : Nat) : State :=
  match s.cmd? n with
  | none => s
  | some c =>
    let t : State := { s with fab := { s.fab with waits := s.fab.waits.filter (fun w => w.commit != n) } }
    t.endDiscard c (c.built 0x0041 0) c.large

/-- The context is freed with the locks it holds released as abandoned (R179, R180). -/
def State.freeCtx (s : State) (x : CtxId) : State := (s.setInv x none).abandonUser (lockUser x)

/-- Every invocation that meets `p` ends with its changes discarded, and its command queues again (R180). -/
def State.restartWhere (s : State) (p : CtxId → Bool) : State :=
  s.eng.cmds.foldl (fun s c => match c.phase with
    | .running x =>
      if p x then
        let t := s.freeCtx x
        let t : State := { t with sel := { t.sel with reserved := t.sel.reserved.filter (fun e => e.2 != c.commit) } }
        t.modCmd c.commit (fun c => { c with phase := .queued, fenced := false })
      else s
    | .waitGrant | .queued | .holding | .responding | .forwarded => s) s

/-! ## Flushing and fencing (R141, R142, R340) -/

/-- A write of the namespaces that `covers` admits, below commit number n, that is not yet on the media (R141, R340). -/
def State.unflushed (s : State) (n : Nat) (covers : Nat → Bool) : Bool :=
  s.eng.cmds.any (fun c => decide (c.commit < n) && clsWrites c.entry.cls && covers c.nsid &&
    !decide (c.phase = Phase.responding)) ||
  (upto 4).any (fun d =>
    (s.die d).extents.any (fun x => x.current && decide (x.commit < n) && covers x.nsid && (match x.owner with
      | .object _ => true
      | .part _ | .image _ _ | .command _ | .staged _ => false)) ||
    (s.die d).log.any (fun r => decide (r.commit < n) && decide (r.commit ≠ 0) && decide (r.nsid < 4096) && covers r.nsid)) ||
  s.fab.fwds.any (fun f => decide (f.commit < n))

/-- Every earlier command of the connection, or of the package, has sent its final response (R142, R217, R418). -/
def State.fenceMet (s : State) (c : Cmd) (pkg : Bool) : Bool :=
  s.eng.cmds.all (fun b => !(decide (b.commit < c.commit) &&
    (pkg || (decide (b.conn = c.conn) && decide (b.gen = c.gen) && decide (b.origin = c.origin)))))

end Sys2Proof.Machine
end

