-- ==== Sys2Proof/Machine/Purge.lean ====
section
/-! DEFINITION. Superblocks as sets of slots (R288, R323): which slots a superblock holds, which map index a slot is a
candidate for (R304, R335, R336), which slots are stale, and the targets that an MSDISC marks. -/

namespace Sys2Proof.Machine

/-- Superblock `x` holds block `b` of the die (channel × 16 + position, × 16,384 + number). -/
def Super.hasBlock (x : Super) (b : Nat) : Bool :=
  decide (b / 262144 / 16 = x.region) && decide (b / 16384 % 16 = x.pos) &&
  decide (x.blocks.getD (b / 262144 % 16) none = some (b % 16384))

/-- The superblock that holds block b. -/
def Die.superOf (d : Die) (b : Nat) : Option Nat :=
  (d.supers.find? (fun e => match e.2 with
    | some x => x.hasBlock b
    | none => false)).map (fun e => e.1)

/-- The blocks of a superblock, by die-wide number. -/
def Super.blockList (x : Super) : List Nat :=
  (upto 16).filterMap (fun c => (x.blocks.getD c none).map (fun n => ((x.region * 16 + c) * 16 + x.pos) * 16384 + n))

/-- The programmed slots of a superblock, by physical chunk address. -/
def Die.superSlots (d : Die) (x : Super) : List (Nat × Slot) :=
  d.slots.filterMap (fun e => match e.2 with
    | some t => if x.hasBlock (pcaBlock e.1) then some (e.1, t) else none
    | none => none)

/-! ## Owners and the map (R304, R305, R335, R336) -/

/-- HANDLE of an owner's chunks. -/
def ownerHandle : Owner → Option W32
  | .object h => some h
  | .part n => some (partHandle n)
  | .image _ _ | .command _ | .staged _ => none

/-- The pending put of a serial. -/
def Die.putSerial (d : Die) (n : Nat) : Option Pending := d.allPuts.find? (fun p => p.serial == n)

/-- The live entry whose value came from the put of a serial. -/
def Die.originEntry (d : Die) (n : Nat) : Option DirEntry :=
  (d.dir.find? (fun e => e.2.live && decide (e.2.origin = some n))).map (fun e => e.2)

/-- The map index that a slot is a candidate for: its owner's run, when its SEQ lies on the owner's side of FLOOR (R356). -/
def Die.mapIndex (d : Die) (t : Slot) : Option Nat :=
  if t.sys then none
  else if 0xF0000000 ≤ t.handle.toNat then
    let n := t.handle.toNat - 0xF0000000
    match d.putSerial n with
    | some p => if t.chunk < chunksOf p.length then some (p.first + t.chunk) else none
    | none => (match d.originEntry n with
      | some e => if t.chunk < chunksOf e.length ∧ t.seq < e.floor then some (e.first + t.chunk) else none
      | none => none)
  else
    match d.liveBy t.handle with
    | some e => if t.chunk < chunksOf e.length ∧ e.floor ≤ t.seq then some (e.first + t.chunk) else none
    | none => none

/-- The handle under which a copy of a slot is written: its owner's at this moment (R335). -/
def Die.ownerNow (d : Die) (t : Slot) : W32 :=
  if 0xF0000000 ≤ t.handle.toNat then
    match d.originEntry (t.handle.toNat - 0xF0000000) with
    | some e => e.handle
    | none => t.handle
  else t.handle

/-- Namespace, key and usermeta behind an owner. -/
def Die.ownerKey (d : Die) (o : Owner) : Option (Nat × Octets × Octets) :=
  match o with
  | .object h => (d.liveBy h).map (fun e => (e.nsid, e.key, d.recordOf e))
  | .part n => (d.putSerial n).map (fun p => (p.nsid, p.key, keyRecord 0 p.usermeta p.key))
  | .image _ _ | .command _ | .staged _ => none

/-- A map entry comes to name a verified slot. -/
def Die.mapTo (d : Die) (i pca : Nat) (slc : Bool) : Die :=
  { d with map := tabSet (fun _ => {}) d.map i { pca := pca, onMedia := true, slc := slc } }

/-- The map index whose entry names a slot. -/
def Die.indexOfPca (d : Die) (pca : Nat) : Option Nat := (d.map.find? (fun e => e.2.onMedia && e.2.pca == pca)).map (fun e => e.1)

/-- A map entry names the slot. -/
def Die.mapped (d : Die) (pca : Nat) : Bool := d.map.any (fun e => e.2.onMedia && e.2.pca == pca)

/-- A slot programmed and not yet named is one that the map will come to name: the source of its copy is still mapped, or its
owner's value is current (R305, R336). -/
def Die.awaited (d : Die) (t : Slot) : Bool :=
  !t.named && (match t.src with
    | some p => (d.indexOfPca p).isSome
    | none => (d.mapIndex t).isSome)

/-- A data slot that no map entry names or will name; system slots are not chunks of objects. -/
def Die.stale (d : Die) (e : Nat × Slot) : Bool := !e.2.sys && !d.mapped e.1 && !d.awaited e.2

/-- The superblock's key-hash filter holds both bits of a hash (R323). -/
def Super.filterHolds (x : Super) (h : W64) : Bool :=
  x.filter.contains (bitsOf h.toNat 0 12) && x.filter.contains (bitsOf h.toNat 12 12)

/-- The targets of an MSDISC in a region (R323 step 1). -/
def Die.purgeTargets (d : Die) (region : Nat) (h : W64) : List Nat :=
  (d.supers.filter (fun e => match e.2 with
    | some x => decide (x.region = region) && x.filterHolds h && (d.superSlots x).any d.stale
    | none => false)).map (fun e => e.1)

/-- Superblocks still to be erased for a command. -/
def Die.purging (d : Die) (commit : Nat) : Bool :=
  d.supers.any (fun e => match e.2 with
    | some x => x.purge.contains commit
    | none => false)

end Sys2Proof.Machine
end

