-- ==== Sys2Proof/Machine/Superblocks.lean ====
section
/-! DEFINITION. A store die's superblocks: free blocks and the opening of a superblock (R306, R307), the SLC buffer (R292,
R293), programming chunks, parity, fillers and summaries (R284, R288 to R291, R320), naming verified chunks (R290, R304, R305,
R334), copies and emptied superblocks (R305, R310, R344), abandoned superblocks (R317) and purge targets (R323). -/

namespace Sys2Proof.Machine

/-- N_Q, BPP and D of the profile in use, and the time base in ns. -/
structure Geo where
  nq : Nat
  bpp : Nat
  dies : Nat
  now : Nat
deriving DecidableEq, Repr

def State.geo (s : State) : Geo := { nq := s.nq, bpp := s.bpp, dies := s.diesPerChannel, now := s.now.toNat }

/-- Stripes of a superblock: slots 0 to N − 2 (R288). -/
def Geo.stripes (g : Geo) (slc : Bool) : Nat := (if slc then g.nq / 4 else g.nq) - 1

/-! ## Free blocks (R307) -/

/-- The anchor and key blocks of a die at die position 0 of region 0 (R325, R343): `i` 0 to 3 anchor pairs A and B on channels 1 and
9, 4 to 7 key pairs A and B on channels 0 and 8. The channel, and the first of the 16 blocks that they are chosen from. -/
def pairChannel (i : Nat) : Nat := (if i < 4 then 1 else 0) + (if i / 2 % 2 = 1 then 8 else 0)
def pairFirst (i : Nat) : Nat := if i < 4 then 0 else 16

/-- The die-wide number of pair block i: the lowest two blocks of its range until FORMAT chooses others (DESIGN CHOICE, log 121). -/
def Die.pairKey (d : Die) (i : Nat) : Nat := pairChannel i * 262144 + tabGet (fun i => pairFirst i + i % 2) d.pairs i

def Die.pairBlock (d : Die) (b : Nat) : Bool := (upto 8).any (fun i => decide (d.pairKey i = b))

/-- FORMAT chooses the lowest good blocks of each range, for no retired block holds an anchor or a key image (R325, R343). -/
def Die.choosePairs (d : Die) : Die :=
  { d with pairs := (upto 8).foldl (fun t i =>
      let base := pairChannel i * 262144 + pairFirst i
      let good := (upto 16).filter (fun n => !(d.block (base + n)).bad)
      tabSet (fun i => pairFirst i + i % 2) t i (pairFirst i + good.getD (i % 2) (i % 2))) [] }

/-- An anchor record is written to both blocks of the active pair; a full pair gives way to the other, erased first (R343). -/
def Die.writeAnchor (d : Die) (g : Geo) : Die :=
  if d.anchorUsed < g.nq / 4 then { d with anchorUsed := d.anchorUsed + 1 }
  else
    let p := 1 - d.anchorPair
    let worn := [p, 2 + p].foldl (fun d i => d.modBlock (d.pairKey i) (fun b => { b with erases := b.erases + 1 })) d
    { worn with anchorPair := p, anchorUsed := 1 }

/-- A block in the free pool. -/
def Die.freeBlock (d : Die) (b : Nat) : Bool := !(d.block b).bad && !d.pairBlock b && (d.superOf b).isNone

/-- Free blocks of channel ch at position p. -/
def Die.freeOn (d : Die) (bpp ch p : Nat) : Nat :=
  let used := d.supers.filter (fun e => match e.2 with
    | some x => decide (x.region = ch / 16) && decide (x.pos = p) && (match x.blocks.getD (ch % 16) none with
        | some n => !(d.block ((ch * 16 + p) * 16384 + n)).bad
        | none => false)
    | none => false)
  let pairs := if p = 0 ∧ (ch = 0 ∨ ch = 1 ∨ ch = 8 ∨ ch = 9) then 2 else 0
  d.goodBlocks bpp (ch * 16 + p) - used.length - pairs

/-- The free block with the lowest erase count, then the lowest number (R307). -/
def Die.pickBlock (d : Die) (bpp ch p : Nat) : Option Nat :=
  let base := (ch * 16 + p) * 16384
  match leastBelow bpp (fun n => decide ((d.block (base + n)).erases = 0) && d.freeBlock (base + n)) with
  | some n => some n
  | none =>
    let own := d.blocks.filter (fun e => decide (e.1 / 16384 = ch * 16 + p) && d.freeBlock e.1)
    match sortBy (fun e => e.2.erases * 16384 + e.1 % 16384) own with
    | e :: _ => some (e.1 % 16384)
    | [] => none

/-- Superblocks that position p of region r can still open: none when the position is offline (R321). -/
def Die.freeAt (d : Die) (bpp r p : Nat) : Nat :=
  if 3 ≤ d.erasures r p then 0
  else ((upto 16).filter (fun c => !d.erased (r * 16 + c) p)).foldl (fun m c => min m (d.freeOn bpp (r * 16 + c) p)) bpp

/-- Superblocks at each of min(D, 4) positions that the holdup reserve of a region takes (R348). -/
def Geo.reserveAt (g : Geo) : Nat := ceilDiv (ceilDiv 74 (min g.dies 4)) (g.stripes true)

/-- The superblocks that position p holds back for the holdup reserve of its region: the reserve is spread over positions 0 to
min(D, 4) − 1 (DESIGN CHOICE of the positions, log 121). -/
def Geo.reserved (g : Geo) (p : Nat) : Nat := if p < min g.dies 4 then g.reserveAt else 0

/-- Superblocks that a stream can open at position p: a dump takes the reserve, every other stream leaves it (R348). -/
def Die.openable (d : Die) (g : Geo) (r p : Nat) (st : Stream) : Nat :=
  d.freeAt g.bpp r p - (if (d.region r).reserve ∧ st ≠ .image then g.reserved p else 0)

/-- Free superblocks of region r, less those of its holdup reserve. -/
def Die.freeSupers (d : Die) (g : Geo) (r : Nat) : Nat := sumOf (fun p => d.openable g r p .host) (upto g.dies)

/-- The region has its holdup reserve whole (R348). -/
def Die.reserveWhole (d : Die) (g : Geo) (r : Nat) : Bool :=
  (d.region r).reserve && (upto (min g.dies 4)).all (fun p => decide (g.reserved p ≤ d.freeAt g.bpp r p))

/-! ## Superblocks -/

def superKey (r n : Nat) : Nat := r * 1048576 + n

/-- The superblocks of region r, by key. -/
def Die.regionSupers (d : Die) (r : Nat) : List (Nat × Super) :=
  d.supers.filterMap (fun e => match e.2 with
    | some x => if x.region = r then some (e.1, x) else none
    | none => none)

def Region.open_ (x : Region) : Stream → Option Nat
  | .host => x.host
  | .copy => x.copy
  | .cold => x.cold
  | .image => x.image

def Region.setOpen (x : Region) (st : Stream) (o : Option Nat) : Region :=
  match st with
  | .host => { x with host := o }
  | .copy => { x with copy := o }
  | .cold => { x with cold := o }
  | .image => { x with image := o }

/-- The open streams no longer name superblock n. -/
def Region.closeStream (r : Region) (n : Nat) : Region :=
  let drop (o : Option Nat) : Option Nat := if o = some n then none else o
  { r with host := drop r.host, copy := drop r.copy, cold := drop r.cold, image := drop r.image }

/-! ## The SLC buffer (R292, R293) -/

/-- SLC superblocks of a region. -/
def Die.slcCount (d : Die) (r : Nat) : Nat :=
  ((d.regionSupers r).filter (fun e => e.2.slc && decide (e.2.stream ≠ .image))).length

/-- The target of the buffer as an opening evaluates it, in whole superblocks, rounded up: (0.01 + 0.25 f) × R. -/
def Die.targetNow (d : Die) (g : Geo) (r : Nat) : Nat :=
  let lcap := tabGet (fun _ => 0) d.ledger.lcap r
  let free := lcap - tabGet (fun _ => 0) d.ledger.lcount r
  if lcap = 0 then ceilDiv (g.dies * g.bpp) 100 else ceilDiv ((4 * lcap + 100 * free) * g.dies * g.bpp) (400 * lcap)

/-- The target that the last opening in region r left (R292). -/
def Die.slcTarget (d : Die) (r : Nat) : Nat := (d.region r).slcTarget

/-- The mode in which a stream opens a superblock (Table 10-2): HOST in SLC below the target (R293), a dump's in SLC (R346), the others in QLC. -/
def Die.streamMode (d : Die) (g : Geo) (r : Nat) : Stream → Bool
  | .host => decide (d.slcCount r < d.targetNow g r)
  | .image => true
  | .copy | .cold => false

/-- The mode that a drain of region r takes (R293): that of the open HOST superblock, else that of the next one. -/
def Die.drainSlc (d : Die) (g : Geo) (r : Nat) : Bool :=
  match (d.region r).host with
  | some k => (match d.super k with
      | some x => x.slc
      | none => false)
  | none => d.streamMode g r .host

/-! ## Opening a superblock (R306, R307) -/

/-- A block taken into a superblock of a mode: erased in that mode before its first program, unless its last erase was in
that mode already (R279, R293, R307); its erase count at opening is kept for the summary (Table 9-10). -/
def Die.openBlock (d : Die) (b : Nat) (slc : Bool) : Die :=
  d.modBlock b (fun x =>
    let n := if x.mode = some slc then x.erases else x.erases + 1
    { x with erases := n, reads := if x.mode = some slc then x.reads else 0, mode := some slc, opened := n })

/-- A new superblock of a stream: the next die position in rotation that can form one (R307); the buffer's target is evaluated
(R292). -/
def Die.openSuper (d : Die) (g : Geo) (r : Nat) (st : Stream) : Option (Die × Nat) :=
  let x := d.region r
  match ((upto g.dies).map (fun i => (x.rotation + i) % g.dies)).find? (fun p => decide (0 < d.openable g r p st)) with
  | none => none
  | some p =>
    let blocks := (upto 16).map (fun c => if d.erased (r * 16 + c) p then none else d.pickBlock g.bpp (r * 16 + c) p)
    let n := match leastFrom (d.supers.length + 1) 0 (fun n => (d.super (superKey r n)).isNone) with
      | some n => n
      | none => 0
    let k := superKey r n
    let slc := d.streamMode g r st
    let sb : Super := { region := r, pos := p, slc := slc, stream := st, blocks := blocks, lastPatrol := g.now }
    let target := d.targetNow g r
    let d := (sb.blockList.foldl (fun d b => d.openBlock b slc) d).setSuper k (some sb)
    some (d.modRegion r (fun x => { x.setOpen st (some k) with rotation := (p + 1) % g.dies, slcTarget := target }), k)

/-- A stream without an open superblock opens its next one, when one is free (R306). -/
def Die.openStream (d : Die) (g : Geo) (r : Nat) (st : Stream) : Die :=
  match (d.region r).open_ st with
  | some _ => d
  | none => (match d.openSuper g r st with
    | some e => e.1
    | none => d)

/-- Each region keeps three open superblocks (R306). -/
def Die.openStreams (d : Die) (g : Geo) : Die :=
  (upto 4).foldl (fun d r => [Stream.host, .copy, .cold].foldl (fun d st => d.openStream g r st) d) d

/-! ## Programming (R284, R288 to R291, R320) -/

/-- Channel position of data position i of stripe j (R288). -/
def dataChannel (k : Nat) : Nat := (k / 14 + 2 + k % 14) % 16

/-- Channel position of P, or of Q, of stripe j (R288). -/
def parityChannel (j : Nat) (q : Bool) : Nat := (j + bit01 q) % 16

/-- The physical chunk address of slot j on channel position c of a superblock; none where it has no block. -/
def Super.pcaOn (x : Super) (j c : Nat) : Option Nat :=
  (x.blocks.getD c none).map (fun n => pcaOf (((x.region * 16 + c) * 16 + x.pos) * 16384 + n) j)

/-- The physical chunk address of data position k of a superblock. -/
def Super.pcaAt (x : Super) (k : Nat) : Nat := (x.pcaOn (k / 14) (dataChannel k)).getD 0

/-- Slot j on channel position c can be programmed: the channel and die are no erasures (R320). -/
def Die.stripePca (d : Die) (x : Super) (j c : Nat) : Option Nat :=
  if d.erased (x.region * 16 + c) x.pos then none else x.pcaOn j c

/-- The next data position of a superblock that a chunk can take: none on an erased channel (R320). -/
def Die.nextPos (d : Die) (g : Geo) (x : Super) : Option Nat :=
  match leastFrom 15 x.filled (fun k => (d.stripePca x (k / 14) (dataChannel k)).isSome) with
  | some k => if k < 14 * g.stripes x.slc then some k else none
  | none => none

/-- A slot is programmed with the next SEQ (R284); its flash die becomes ACTIVE (R277, R278). The copy of a chunk found unreadable
holds no octets either (R315). -/
def Die.program (d : Die) (pca : Nat) (t : Slot) : Die :=
  let d := (d.setSlot pca (some { t with seq := d.seqNext, verified := false, named := false })).modFlash
    (pcaFlash pca) (fun f => { f with power := .active })
  { d with seqNext := d.seqNext + 1, seqEnd := if d.seqEnd ≤ d.seqNext then d.seqNext + 2 ^ 32 else d.seqEnd }

/-- A slot that is no object page: a filler (R290), P or Q of stripe `chunk`, or a block's summary (Table 9-9, R291). -/
def plainSlot (kind : SlotKind) (chunk : Nat) (slc : Bool) : Slot :=
  { handle := noHandle, chunk, slc, sys := true, keyrec := false, seq := 0, nsid := 0, keyHash := 0, kslot := 0, key := 0
    data := [], record := [], kind }

/-- P and Q of stripe j are programmed; one on an erased channel is absent (R320). -/
def Die.programParity (d : Die) (x : Super) (j : Nat) : Die :=
  [false, true].foldl (fun d q => match d.stripePca x j (parityChannel j q) with
    | some p => d.program p (plainSlot (.parity q) j x.slc)
    | none => d) d

/-- The summary of every block of a superblock is programmed in slot N − 1 (R291). -/
def Die.programSummaries (d : Die) (g : Geo) (x : Super) : Die :=
  (upto 16).foldl (fun d c => match d.stripePca x (g.stripes x.slc) c with
    | some p => d.program p (plainSlot .summary 0 x.slc)
    | none => d) d

/-- Stripe j of superblock k closes with its parity; after its last stripe the superblock closes with its summaries and its
stream opens the next (R290, R291, R306). -/
def Die.endStripe (d : Die) (g : Geo) (k j : Nat) : Die :=
  match d.super k with
  | none => d
  | some x =>
    let d := (d.programParity x j).modSuper k (fun x => { x with filled := 14 * (j + 1) })
    if j + 1 < g.stripes x.slc then d
    else
      ((((d.programSummaries g x).modSuper k (fun x => { x with closed := true, closeTime := g.now })).modRegion x.region
        (fun r => r.closeStream k))) |> fun d => if x.stream = .image then d else d.openStream g x.region x.stream

/-- Stripe j of an open superblock closes when no data position of it is left: the empty ones lie on erased channels. -/
def Die.endIfFull (d : Die) (g : Geo) (k j : Nat) : Die :=
  match d.super k with
  | none => d
  | some x =>
    let more := match d.nextPos g x with
      | some q => decide (q / 14 = j)
      | none => false
    if x.closed || more then d else d.endStripe g k j

/-- After an erasure, a stripe begun closes when only erased channels are left in it. -/
def Die.settleStripe (d : Die) (g : Geo) (k : Nat) : Die :=
  match d.super k with
  | none => d
  | some x => if x.filled % 14 = 0 then d else d.endIfFull g k (x.filled / 14)

/-- The two filter bits of a key hash (R323). -/
def filterBits (h : W64) : List Nat := [bitsOf h.toNat 0 12, bitsOf h.toNat 12 12]

/-- A chunk is programmed at the next position of the stream's open superblock (R284, R306); without a free superblock nothing
is programmed. -/
def Die.append (d : Die) (g : Geo) (r : Nat) (st : Stream) (t : Slot) : Option (Die × Nat) :=
  let d := d.openStream g r st
  match (d.region r).open_ st with
  | none => none
  | some k =>
    match d.super k with
    | none => none
    | some x =>
      match d.nextPos g x with
      | none => none
      | some pos =>
        let pca := x.pcaAt pos
        let d := (d.program pca { t with slc := x.slc }).modSuper k (fun x => { x with
          filled := pos + 1, filter := if t.sys then x.filter else (filterBits t.keyHash ++ x.filter).eraseDups })
        some (d.endIfFull g k (pos / 14), pca)

/-- A stream of region r can take a chunk. -/
def Die.canAppend (d : Die) (g : Geo) (r : Nat) (st : Stream) : Bool := (((d.openStream g r st).region r).open_ st).isSome

/-- The open SLC superblock of a region's HOST stream closes the stripe that it has begun, with filler chunks (R290). -/
def Die.fillStripe (d : Die) (g : Geo) (r : Nat) : Die :=
  match (d.region r).host with
  | none => d
  | some k =>
    match d.super k with
    | none => d
    | some x =>
      if x.slc && decide (x.filled % 14 ≠ 0) then
        let j := x.filled / 14
        let rest := (upto (14 - x.filled % 14)).map (fun i => x.filled + i)
        let d := rest.foldl (fun d q => match d.stripePca x j (dataChannel q) with
          | some p => d.program p (plainSlot .filler 0 true)
          | none => d) d
        d.endStripe g k j
      else d

/-- A FLUSH waits somewhere, or a FENCE of the media kind (R141, R217). -/
def State.flushWaits (s : State) : Bool :=
  s.eng.ctxs.any (fun e => match e.2 with
    | some v => (match v.wait with
      | .fence f => decide (2 ≤ f)
      | .factory .fence => decide (v.image = Image.factory 0x11)
      | _ => false)
    | none => false)

/-- While a FLUSH waits, SLC stripes begun are closed with fillers (R290). -/
def State.flushStripes (s : State) : State :=
  if s.flushWaits then
    (upto 4).foldl (fun s d => if (s.die d).live then s.modDie d (fun x => (upto 4).foldl (fun x r => x.fillStripe s.geo r) x) else s) s
  else s

/-! ## Releases (R334) -/

/-- Every chunk of an extent is on the media. -/
def Die.extentDrained (d : Die) (x : Extent) : Bool :=
  let first : Option Nat := match x.owner with
    | .object h => (d.liveBy h).map (fun e => e.first)
    | .part n => (d.putSerial n).map (fun p => p.first)
    | .image _ _ | .command _ | .staged _ => none
  match first with
  | some f => (upto (chunksOf x.value.length)).all (fun i => (tabGet (fun _ => {}) d.map (f + x.chunk0 + i)).onMedia)
  | none => false

/-- Extents that are drained and that no unreleased record names are released. -/
def Die.settleExtents (d : Die) : Die :=
  let named := namedRefs d.log
  { d with extents := d.extents.filter (fun x => !(x.current && !named.contains x.ref && d.extentDrained x)) }

/-! ## System chunks -/

/-- A system slot (R338): CHUNK names its type in bits 23 to 20. -/
def sysSlot (type n : Nat) (key : BitVec 512) : Slot :=
  { handle := noHandle, chunk := type * 2 ^ 20 + n % 2 ^ 20, slc := false, sys := true, keyrec := false, seq := 0, nsid := 0
    keyHash := 0, kslot := 1024, key, data := [], record := [] }

/-- A list of system chunks is programmed into a stream, in order; the addresses that they took (R341). -/
def Die.appendSys (d : Die) (g : Geo) (r : Nat) (st : Stream) (ts : List Slot) : Option (Die × List Nat) :=
  ts.foldl (fun acc t => acc.bind (fun a => (a.1.append g r st t).map (fun e => (e.1, a.2 ++ [e.2])))) (some (d, []))

/-- The system key (R286). -/
def Die.sysKey (d : Die) : BitVec 512 := tabGet (fun _ => 0) d.keys 1024

/-- The first `n` entries of the origin tail are written as one ORIGIN chunk in the COPY stream of the regions in rotation (R337,
R341). -/
def Die.writeOrigin (d : Die) (g : Geo) (n : Nat) : Die :=
  if d.originTail = [] then d
  else match d.append g (d.originNext % 4) .copy (sysSlot 5 d.originNext d.sysKey) with
    | some (t, _) => { t with
        originLog := t.originLog ++ [(t.originNext, t.originTail.take n)], originTail := t.originTail.drop n, originNext := t.originNext + 1 }
    | none => d

/-- Entries of the origin tail when it is full (R337). -/
def originTailSize : Nat := 4096

/-- A full origin tail of store die d is written (R337). -/
def State.flushOrigin (s : State) (d : Nat) : State :=
  if originTailSize ≤ (s.die d).originTail.length then s.modDie d (fun x => x.writeOrigin s.geo originTailSize) else s

/-- A slot holds an ORIGIN chunk with entries that no copy of it holds elsewhere: it is copied as an object chunk is (R338). -/
def Die.originHeld (d : Die) (e : Nat × Slot) : Bool :=
  e.2.sys && decide (e.2.kind = .data) && decide (e.2.chunk / 2 ^ 20 = 5) && d.originLog.any (fun o => o.1 % 2 ^ 20 == e.2.chunk % 2 ^ 20) &&
  !d.slots.any (fun c => match c.2 with
    | some t => t.src == some e.1 && t.named
    | none => false)

/-- JSTART of the older retained epoch. -/
def Die.oldestJ (d : Die) : Nat :=
  match d.epochs.getLast? with
  | some e => e.jStart
  | none => 0

/-- A superblock holds a chunk of a retained epoch (R342): a root chunk, or a journal chunk from the older JSTART onward; or a chunk of
an image that a PREDUMP anchor names (R349). -/
def Die.pinned (d : Die) (x : Super) : Bool :=
  (d.superSlots x).any (fun e => e.2.sys && (
    (decide (e.2.chunk / 2 ^ 20 = 3) && (d.epochs ++ d.epochOpen.toList).any (fun p => p.roots.contains e.1)) ||
    (decide (e.2.chunk / 2 ^ 20 = 4) && d.images.any (fun i => i.predump && decide (i.die = e.2.chunk / 2 ^ 18 % 4))) ||
    (decide (e.2.chunk / 2 ^ 20 = 1) && d.journal.any (fun j => j.1 % 2 ^ 20 == e.2.chunk % 2 ^ 20 && decide (d.oldestJ ≤ j.1)))))

/-! ## Copies (R305, R310, R314, R319) -/

/-- Nothing more is expected of a programmed slot: it is verified and, a chunk, its naming is done. -/
def Slot.settled (t : Slot) : Bool := t.verified && (t.named || decide (t.kind ≠ .data))

/-- A copy of the slot at `pca` is under way. -/
def Die.copying (d : Die) (pca : Nat) : Bool := d.slots.any (fun e => match e.2 with
  | some t => !t.named && t.src == some pca
  | none => false)

/-- One more read of a block (R313). -/
def Die.countRead (d : Die) (b : Nat) : Die := d.modBlock b (fun x => { x with reads := x.reads + 1 })

/-- A superblock of an offline die position: its chunks are not to be had (R321). -/
def Die.offlineAt (d : Die) (x : Super) : Bool := decide (3 ≤ d.erasures x.region x.pos)

/-- The slots of a superblock that must be copied before it is emptied, and that no copy is under way for: valid chunks, and ORIGIN
chunks (R338). None of an offline position can be copied (R321). -/
def Die.validSlots (d : Die) (x : Super) : List (Nat × Slot) :=
  if d.offlineAt x then [] else (d.superSlots x).filter (fun e => ((!e.2.sys && d.mapped e.1) || d.originHeld e) && !d.copying e.1)

/-- Number of valid chunks of a superblock: V of R308. -/
def Die.validCount (d : Die) (x : Super) : Nat := ((d.superSlots x).filter (fun e => !e.2.sys && d.mapped e.1)).length

/-- A superblock with no valid chunk that holds nothing of a retained epoch is emptied: it waits for the next epoch that
begins (R344). -/
def Die.settleEmptied (d : Die) (k : Nat) : Die :=
  match d.super k with
  | none => d
  | some x =>
    if x.closed && x.emptied.isNone && decide (d.validCount x = 0) && !(d.superSlots x).any d.originHeld && !d.pinned x && (d.superSlots x).all (fun e => e.2.settled) then
      let next := match d.epochOpen with
        | some e => e.num + 1
        | none => d.epochNo + 1
      d.modSuper k (fun x => { x with emptied := some next })
    else d

/-- Every valid chunk of superblock k is copied into a stream; without a free superblock the rest waits. -/
def Die.relocate (d : Die) (g : Geo) (k : Nat) (st : Stream) : Die :=
  match d.super k with
  | none => d
  | some x =>
    let done := (d.validSlots x).foldl (fun d e =>
      let t : Slot := { e.2 with handle := d.ownerNow e.2, src := some e.1 }
      match (d.countRead (pcaBlock e.1)).append g x.region st t with
      | some (d, _) => d
      | none => d) d
    done.settleEmptied k

/-! ## Verified chunks (R290, R304, R305, R334) -/

/-- The programmed slots of stripe j of a superblock. -/
def Die.stripeSlots (d : Die) (x : Super) (j : Nat) : List (Nat × Slot) :=
  (upto 16).filterMap (fun c => (x.pcaOn j c).bind (fun p => (d.slot p).map (fun t => (p, t))))

/-- Stripe j is closed and its parity is verified, as far as its erasures leave parity. -/
def Die.parityVerified (d : Die) (x : Super) (j : Nat) : Bool :=
  decide (14 * (j + 1) ≤ x.filled) && (d.stripeSlots x j).all (fun e => match e.2.kind with
    | .parity _ => e.2.verified
    | .data | .filler | .summary => true)

/-- Every chunk of stripe j and its parity are verified. -/
def Die.stripeVerified (d : Die) (x : Super) (j : Nat) : Bool :=
  decide (14 * (j + 1) ≤ x.filled) && (d.stripeSlots x j).all (fun e => e.2.verified)

/-- The slot can be read: in QLC mode its whole group of four slots is programmed (R280). -/
def Die.groupWhole (d : Die) (pca : Nat) (slc : Bool) : Bool :=
  slc || (upto 4).all (fun i => (d.slot (pca - pcaSlot pca % 4 + i)).isSome)

/-- A verified chunk of a stripe with verified parity is named by the map (R304), a copy only while the map still names its
source (R305); a journal chunk releases its records (R334). -/
def Die.nameChunk (d : Die) (pca : Nat) (t : Slot) : Die :=
  let d := d.setSlot pca (some { t with named := true })
  if t.sys then
    if t.chunk / 2 ^ 20 = 1 then
      match d.journal.find? (fun j => j.1 % 2 ^ 20 == t.chunk % 2 ^ 20) with
      | some j => { d with
          log := d.log.drop j.2.length, logTail := (d.logTail + sumOf (fun r => r.octets) j.2) % logRing }
      | none => d
    else d
  else match t.src with
    | some p => (match d.indexOfPca p with
      | some i => d.mapTo i pca t.slc
      | none => d)
    | none => (match d.mapIndex t with
      | some i => d.mapTo i pca t.slc
      | none => d)

/-- The chunks of stripe j that are verified with its parity are named. -/
def Die.nameStripe (d : Die) (k j : Nat) : Die :=
  match d.super k with
  | none => d
  | some x =>
    if d.parityVerified x j then
      ((d.stripeSlots x j).filter (fun e => e.2.verified && !e.2.named && decide (e.2.kind = .data))).foldl
        (fun d e => d.nameChunk e.1 e.2) d
    else d

/-- A closed superblock whose slots are all verified has its summaries verified; a superblock whose chunks were copied into
stripe j may be empty now (R344). -/
def Die.afterVerify (d : Die) (k j : Nat) : Die :=
  match d.super k with
  | none => d
  | some x =>
    let d := if x.closed && !x.abandoned && (d.superSlots x).all (fun e => e.2.verified)
      then d.modSuper k (fun x => { x with summarised := true }) else d
    (d.stripeSlots x j).foldl (fun d e => match e.2.src with
      | some p => (match d.superOf (pcaBlock p) with
        | some k => d.settleEmptied k
        | none => d)
      | none => d) d

/-- The slot at `pca` verifies, and what follows from it: names, releases, emptied superblocks. -/
def Die.verifySlot (d : Die) (pca : Nat) (t : Slot) : Die :=
  let d := d.setSlot pca (some { t with verified := true })
  match d.superOf (pcaBlock pca) with
  | none => d
  | some k => ((d.nameStripe k (pcaSlot pca)).settleExtents).afterVerify k (pcaSlot pca)

/-! ## Abandoned superblocks and purge targets (R317, R323) -/

/-- A drain whose chunk could not be programmed again may be made again. -/
def Die.undrain (d : Die) (t : Slot) : Die :=
  { d with extents := d.extents.map (fun x => if ownerHandle x.owner = some t.handle then { x with draining := false } else x) }

/-- The epoch under way names a root chunk at its new address. -/
def Die.moveRoot (d : Die) (a b : Nat) : Die :=
  { d with epochOpen := d.epochOpen.map (fun e => { e with roots := e.roots.map (fun p => if p = a then b else p) }) }

/-- A superblock takes no further chunk and gets no summary; every chunk of its stripes not yet verified is programmed again
from its source into the same stream while its value is current (R336), a chunk already mapped as a copy (R317 steps 1 to
3). -/
def Die.abandon (d : Die) (g : Geo) (k : Nat) : Die :=
  match d.super k with
  | none => d
  | some x =>
    let open_ := (d.superSlots x).filter (fun e => !d.stripeVerified x (pcaSlot e.1))
    let again := sortBy (fun e => e.2.seq) (open_.filter (fun e => decide (e.2.kind = .data) &&
      (if e.2.sys then !e.2.named || d.originHeld e else d.mapped e.1 || d.awaited e.2)))
    let d := (d.modSuper k (fun x => { x with closed := true, abandoned := true, closeTime := g.now })).modRegion x.region
      (fun r => r.closeStream k)
    let d := (open_.filter (fun e => !e.2.named)).foldl (fun d e => d.setSlot e.1 none) d
    again.foldl (fun d e =>
      match d.append g x.region x.stream (if e.2.named then { e.2 with handle := d.ownerNow e.2, src := some e.1 } else e.2) with
      | some (d, p) => d.moveRoot e.1 p
      | none => if e.2.src.isNone then d.undrain e.2 else d) d

/-- After an erasure of region r: superblocks with chunks in flight on it start again elsewhere, and so do open ones whose
position is offline (R317, R319, R321); begun stripes that it completes close. -/
def Die.abandonOn (d : Die) (g : Geo) (r : Nat) (hit : Nat → Bool) : Die :=
  let d := ((d.regionSupers r).filter (fun e => (d.superSlots e.2).any (fun t => !t.2.verified && hit (pcaFlash t.1)) ||
    (!e.2.closed && decide (3 ≤ d.erasures r e.2.pos)))).foldl (fun d e => d.abandon g e.1) d
  ((d.regionSupers r).filter (fun e => !e.2.closed)).foldl (fun d e => d.settleStripe g e.1) d

/-- The targets of an MSDISC issued by a command are marked; an open one is abandoned (R323 steps 1 and 2). -/
def Die.markPurge (d : Die) (g : Geo) (region commit : Nat) (h : W64) : Die :=
  (d.purgeTargets region h).foldl (fun d n =>
    let d := d.modSuper n (fun x => { x with purge := if x.purge.contains commit then x.purge else commit :: x.purge })
    match d.super n with
    | some x => if x.closed then d else d.abandon g n
    | none => d) d

end Sys2Proof.Machine
end

