-- ==== Sys2Proof/Machine/Forward.lean ====
section
/-! DEFINITION. Forwarding of commands to their acting executor (R413, R415, R416), the loss of the selection table's
completeness (R265), and entry into the read-only sub-state (R420). -/

namespace Sys2Proof.Machine

/-- The member that executes a command: the first SERVING replica of its bucket that serves its region, with SELOK where
the class searches (R413), and that a minority package reaches (R422); `here` tells that this package can execute it. -/
def State.executorOf (s : State) (c : Cmd) (here : Bool) : Option Member :=
  let reach := if s.cause 4 then s.reachable else []
  (s.serving (bucketOf c.stemHash)).find? (fun m =>
    m.serve.getLsbD (regionOf c.stemHash) && (!clsSelects c.entry.cls || m.selOk) && (here || m.uid != Config.uid) &&
    (!s.cause 4 || reach.contains m.uid))

/-- The messages that carry a command to its executor (Table 13-2), and the record of its forwarding. -/
def State.sendFwd (s : State) (c : Cmd) (uid : BitVec 64) : State :=
  let n := rfpBody - 18
  let head (off : Nat) : Octets := beOctets 8 c.commit ++ beOctets 2 c.conn ++ beOctets 4 off ++ beOctets 4 c.msg.length
  let t := (pieces n (c.msg.length / n) 0 c.msg).foldl (fun s p => s.streamSend uid 6 (head p.1 ++ p.2)) s
  let u : State := { t with fab := { t.fab with fwds := t.fab.fwds ++ [{ commit := c.commit, uid }] } }
  (u.bumpFab 3).modCmd c.commit (fun c => { c with phase := .forwarded })

/-- A command that this package does not execute is forwarded, or ends: UNREACHABLE without an executor, MODERO for a write
in the read-only sub-state (R415). Its change lists are empty (R249, R297). -/
def State.forward (s : State) (c : Cmd) : State :=
  if s.readOnly && clsWrites c.entry.cls then s.endDiscard c (c.built 0x0015 0) false
  else match s.executorOf c false with
    | none => s.endDiscard c (c.built 0x0041 0) false
    | some m => ((s.feedStreams c [] []).dropPlaced c).sendFwd c m.uid

/-- A forwarded command that gets no whole response ends with UNREACHABLE (R399). -/
def State.failFwd (s : State) (n : Nat) : State :=
  let t : State := { s with fab := { s.fab with fwds := s.fab.fwds.filter (fun f => f.commit != n) } }
  match t.cmd? n with
  | some c => t.holdRsp c (c.built 0x0041 0) false [] false
  | none => t

/-- A command of class SREAD or SWRITE that has not ended here is ended and forwarded (R265). -/
def State.ejectSel (s : State) (c : Cmd) : State :=
  if clsSelects c.entry.cls then
    match c.phase with
    | .running x =>
      let t := s.freeCtx x
      State.forward { t with sel := { t.sel with reserved := t.sel.reserved.filter (fun e => e.2 != c.commit) } } c
    | .waitGrant | .queued => s.forward c
    | .holding | .responding | .forwarded => s
  else s

/-- The selection table becomes incomplete for a cause, 1 bank, 2 cascade, 3 stack, that takes `banks` out of service
(R265). -/
def State.selIncomplete (s : State) (cause banks : Nat) : State :=
  let t := s.raiseAt 0x0305 (srcOf 0x16 0) s.commitNow cause banks
  let u : State := State.setCause { t with sel := { t.sel with complete := false } } 2 true
  u.eng.cmds.foldl (fun s c => s.ejectSel c) u

/-- The selection table is complete (R265). -/
def State.selWhole (s : State) : Bool :=
  (upto 16).all (fun b => (s.bank b).moved || (!(s.bank b).retired && !(s.bank b).reloading && (s.bank b).inService)) &&
  (upto 4).all (fun d => (s.die d).cascade && !(s.die d).stackLost)

/-- The table is complete again when it is whole (R266). -/
def State.settleSel (s : State) : State :=
  if !s.sel.complete && s.selWhole then
    let t : State := { s with sel := { s.sel with complete := true } }
    (t.raiseAt 0x0306 (srcOf 0x16 0) t.commitNow 0 0).setCause 2 false
  else s

/-- A bank is reset, or retired at its third reset in a window (Table 16-1): masked at its arbiters (R17, R436). -/
def State.bankFault (s : State) (b : Nat) : State :=
  let w := s.windowNo win60s
  let n := countIn (s.bank b).resets (s.bank b).window w
  let t := (s.maskUnit (bankPlace b)).modBank b (fun k => { k with
    resets := n, window := w, inService := false, reloading := decide (n < 3), retired := k.retired || decide (3 ≤ n) })
  let u := if 3 ≤ n then t.setAlert 2 true else t
  u.selIncomplete 1 (2 ^ b)

/-- Writes that wait for their replicas end when the package becomes read-only (R420). -/
def State.settleReadOnly (s : State) : State :=
  if s.readOnly then s.fab.waits.foldl (fun s w => s.failWait w.commit) s else s

/-- A region comes to media end-of-life (R300). -/
def State.endOfLife (s : State) (d r : Nat) : State :=
  if ((s.die d).region r).eol then s
  else
    let n := tabGet (fun _ => 0) (s.die d).ledger.lcount r
    let t := (s.modDie d (fun x => x.modRegion r (fun k => { k with eol := true }))).raiseAt 0x0201
      (srcOf 0x07 (globalRegion d r)) s.commitNow n 0
    (t.setCause 5 true).settleReadOnly

/-! ## The capacity ledger (R297 to R300) -/

/-- 98 % of DS, the limit of R300. -/
def Ledger.eolLimit (l : Ledger) (r : Nat) : Nat := 98 * tabGet (fun _ => 0) l.ds r / 100

/-- Changes of DS and LCAP take effect in the stream, after every number up to their own (R299). -/
def Ledger.takeCaps (l : Ledger) : Ledger :=
  let due (n : Nat) : Bool := l.stream.all (fun e => decide (n < e.1))
  let t := (l.caps.filter (fun c => due c.1)).foldl (fun k c => { k with
    ds := tabSet (fun _ => 0) k.ds c.2.1 c.2.2.1, lcap := tabSet (fun _ => 0) k.lcap c.2.1 c.2.2.2 }) l
  { t with caps := l.caps.filter (fun c => !due c.1) }

/-- The ledger after a change: capacities due take effect, and a region whose LCOUNT passes 98 % of DS is at end-of-life
(R300). -/
def State.settleLedger (s : State) (d : Nat) : State :=
  let t := s.modDie d (fun x => { x with ledger := x.ledger.takeCaps })
  let l := (t.die d).ledger
  ((upto 4).filter (fun r => decide (l.eolLimit r < tabGet (fun _ => 0) l.lcount r))).foldl (fun s r => s.endOfLife d r) t

/-- DS and LCAP of a region as its last change left them, applied or not. -/
def Ledger.lastCap (l : Ledger) (r : Nat) : Nat × Nat :=
  match l.caps.reverse.find? (fun c => c.2.1 == r) with
  | some c => c.2.2
  | none => (tabGet (fun _ => 0) l.ds r, tabGet (fun _ => 0) l.lcap r)

/-- DS and LCAP of region r follow its retirements: a change takes effect in the ledger stream at the commit number that
MM_LCAP records (R299). -/
def State.settleCapacity (s : State) (d r : Nat) : State :=
  let cap := (s.dsOf d r, s.lcapOf d r)
  if (s.die d).ledger.lastCap r = cap then s
  else
    let t := s.modDie d (fun x => { x with ledger := { x.ledger with caps := x.ledger.caps ++ [(s.commitNow, r, cap)] } })
    (t.raiseAt 0x0200 (srcOf 0x07 (globalRegion d r)) s.commitNow cap.2 cap.1).settleLedger d

end Sys2Proof.Machine
end

