-- ==== Sys2Proof/Machine/FabricIn.lean ====
section
/-! DEFINITION. What a package does with an RFP datagram before its row acts on it (R398 to R401): the tag, the route of
messages for others, RUNs and SEQs, the ordered streams. -/

namespace Sys2Proof.Machine

/-- The types of the ordered streams (R401). -/
def isStream (type : Nat) : Bool := decide (6 ≤ type) && decide (type ≤ 11)

/-- The datagram is an RFP message whose tag holds (R398). -/
def State.rfpTagOk (s : State) (o : Octets) : Bool :=
  let n := o.length - 16
  let zeroed := o.take 2 ++ zeros 2 ++ (o.take n).drop 4
  decide (48 ≤ o.length) && decide (beAt o 0 1 / 16 = 1) && decide (1 ≤ beAt o 0 1 % 16) && decide (beAt o 0 1 % 16 ≤ 12) &&
  decide (beAt o 4 2 = o.length) && decide ((hmac256 s.fabKey zeroed).take 16 = o.drop n)

/-- The message is for this package (Table 13-1). -/
def State.rfpMine (s : State) (dst : Nat) (body : Octets) : Bool :=
  decide (dst = dstNeighbour) || (decide (dst = dstByUid) && decide (beAt body 0 8 = Config.uid.toNat)) ||
  (decide (dst < 4096) && s.fab.assigned && decide (dst = s.fab.addr))

/-- A message for another package goes one hop further, or is dropped and counted (R400). -/
def State.rfpRoute (s : State) (o : Octets) : State :=
  let dst := beAt o 6 2
  let uid := if dst = dstByUid then some (BitVec.ofNat 64 (beAt o 32 8)) else s.uidOf dst
  let hops := beAt o 2 2 - 1
  match uid.bind s.nextHop with
  | none => s.bumpFab 2
  | some n => if hops = 0 then s.bumpFab 2 else s.rfpToNbr n (beAt o 0 1 % 16) (o.take 2 ++ beOctets 2 hops ++ o.drop 4)

/-- A SEQ accepted in one number space: its numbers seen, none below the window. -/
def seqOk (seen : List Nat) (n : Nat) : Bool := !seen.contains n && decide (seen.foldl max 0 < n + 4096)

def seqTake (seen : List Nat) (n : Nat) : List Nat :=
  let top := max n (seen.foldl max 0)
  n :: seen.filter (fun k => decide (top < k + 4096))

/-- A sender has restarted: its streams start afresh, and what was forwarded to it ends with UNREACHABLE (R399). -/
def State.newRun (s : State) (uid run : BitVec 64) : State :=
  let p := s.peer uid
  let t := s.setPeer { uid, runs := (({ run } : Run) :: p.runs).take 4, applied := p.applied }
  (t.fab.fwds.filter (fun f => f.uid == uid && !f.ended)).foldl (fun s f => s.failFwd f.commit) t

/-- An ACK for the stream of a peer: the highest stream SEQ received, with the 64 below it (R401). -/
def State.ackStream (s : State) (uid : BitVec 64) : State :=
  let p := s.peer uid
  let seen := match p.runs with
    | r :: _ => r.streamSeen
    | [] => []
  let top := seen.foldl max 0
  let bits := (upto 64).filter (fun i => decide (i + 1 < top + 1) && seen.contains (top - 1 - i))
  match s.addrOf uid with
  | none => s
  | some a => s.rfpOwn uid 12 a (beOctets 2 0 ++ beOctets 6 top ++ beOctets 8 (sumOf (fun i => 2 ^ i) bits))

/-- Stream messages held pass on in SEQ order. -/
def Peer.release (p : Peer) : Nat → List Rfp → Peer × List Rfp
  | 0, out => (p, out)
  | k + 1, out =>
    match p.rxHeld.find? (fun e => e.seq == p.rxNext) with
    | none => (p, out)
    | some e => Peer.release { p with rxNext := p.rxNext + 1, rxHeld := p.rxHeld.filter (fun f => f.seq != e.seq) } k (out ++ [e])

/-- A message accepted under the sender's current RUN. -/
def State.rfpTake (s : State) (m : Rfp) : State :=
  let p := s.peer m.srcUid
  match p.runs with
  | [] => s
  | r :: rest =>
    if isStream m.type then
      if seqOk r.streamSeen m.seq then
        let p1 := { p with runs := { r with streamSeen := seqTake r.streamSeen m.seq } :: rest, rxHeld := p.rxHeld ++ [m] }
        let q := p1.release (p1.rxHeld.length) []
        let t := s.setPeer q.1
        State.ackStream { t with fab := { t.fab with inbox := t.fab.inbox ++ q.2 } } m.srcUid
      else (s.bumpFab 1).ackStream m.srcUid
    else if seqOk r.seen m.seq then
      let t := s.setPeer { p with runs := { r with seen := seqTake r.seen m.seq } :: rest }
      { t with fab := { t.fab with inbox := t.fab.inbox ++ [m] } }
    else s.bumpFab 1

/-- An RFP datagram received on a fabric MAC (R398 to R401). -/
def State.rfpReceive (s : State) (mac : Nat) (eth : BitVec 48) (ip : BitVec 128) (o : Octets) : State :=
  if s.rfpTagOk o = false then s.bumpFab 0
  else
    let body := (o.take (o.length - 16)).drop 32
    let m : Rfp := { type := beAt o 0 1 % 16, mac, eth, ip, dst := beAt o 6 2, srcUid := BitVec.ofNat 64 (beAt o 8 8)
                     srcAddr := beAt o 16 2, seq := beAt o 18 6, body }
    if s.rfpMine m.dst body = false then s.rfpRoute o
    else
      let run := BitVec.ofNat 64 (beAt o 24 8)
      let p := s.peer m.srcUid
      match p.runs with
      | r :: older =>
        if r.run = run then s.rfpTake m
        else if older.any (fun r => r.run == run) then s.bumpFab 1
        else if m.type ≤ 2 then (s.newRun m.srcUid run).rfpTake m
        else s.bumpFab 1
      | [] => if m.type ≤ 2 then (s.newRun m.srcUid run).rfpTake m else s.bumpFab 1

end Sys2Proof.Machine
end

