-- ==== Sys2Proof/Machine/Factory.lean ====
section
/-! DEFINITION. The factory images (07, Table 7-4). The spec gives their steps, and the words of only one of them, so each
runs as one step over the committed state (log 12): it ends, or waits for one of the waits of R164 and is run again. -/

namespace Sys2Proof.Machine

/-- What a factory image comes to: a wait, its end by BUDGET at an instruction and a charge (free values where the spec does not
give the image's words), or its end with STATUS, staged output, staged changes. -/
inductive FRes where
  | wait (w : Why)
  | budget (place : Option (Nat × Nat))
  | done (status : Nat) (segs : List Seg) (staged : List Staged)
deriving DecidableEq, Repr

/-- The fields of Table 4-5 that an image fills. -/
structure Fields where
  rflags : Nat := 0
  version : Nat := 0
  length : Nat := 0
  offset : Nat := 0
  usermeta : Nat := 0
  d0 : Nat := 0
  d1 : Nat := 0
deriving DecidableEq, Repr

/-- The response head of command c. -/
def Cmd.head (c : Cmd) (status : Nat) (f : Fields) : Octets :=
  rspHead status c.opcode f.rflags c.tag c.commit f.version f.length f.offset f.usermeta f.d0 f.d1

def Cmd.fail (c : Cmd) (status d0 : Nat) : FRes := .done status [.octets (c.head status { d0 })] []

def Cmd.ok (c : Cmd) (f : Fields) (body : List Seg) (staged : List Staged) : FRes :=
  .done 0 (.octets (c.head 0 f) :: body) staged

/-! ## Checks 1 to 5 (Table 4-6, R229) -/

def Cmd.nsBad (c : Cmd) : Bool := (headAt c.msg 8 1).testBit 7
def Cmd.modeRo (c : Cmd) : Bool := (headAt c.msg 8 1).testBit 6
def Cmd.nsRo (c : Cmd) : Bool := (headAt c.msg 8 1).testBit 5
def Cmd.sepEn (c : Cmd) : Bool := (headAt c.msg 8 1).testBit 4
def Cmd.sep (c : Cmd) : Byte := BitVec.ofNat 8 (headAt c.msg 11 1)

def Cmd.msgLen (c : Cmd) : Nat := headAt c.msg 0 4
def Cmd.dataLen (c : Cmd) : Nat := c.msgLen - 40 - msgKeyLen c.msg
def Cmd.flag0 (c : Cmd) : Bool := (msgFlags c.msg).testBit 0
def Cmd.p0 (c : Cmd) : Nat := msgP0 c.msg
def Cmd.p1 (c : Cmd) : Nat := msgP1 c.msg
def Cmd.p2 (c : Cmd) : Nat := msgP2 c.msg
def Cmd.p3 (c : Cmd) : Nat := msgP3 c.msg
def Cmd.key (c : Cmd) : Octets := msgKey c.msg
def Cmd.keyName (c : Cmd) : KeyName := { hash := c.keyHash, key := c.key }

/-- The message is shorter than 40 + KEYLEN, or DATA is not none where it must be. -/
def Cmd.badForm (c : Cmd) (dataNone : Bool) : Bool :=
  decide (c.msgLen < 40 + msgKeyLen c.msg) || (dataNone && decide (c.dataLen ≠ 0))

/-- The first of checks 1 to 5 that fails, for an image that needs a key. -/
def Cmd.keyed (c : Cmd) (bad : Bool) : Option Nat :=
  if bad then some 0x0010
  else if msgKeyLen c.msg = 0 then some 0x0012
  else if c.nsBad then some 0x0013
  else if clsWrites c.entry.cls && c.modeRo then some 0x0015
  else if clsWrites c.entry.cls && c.nsRo then some 0x0014
  else none

/-- A check that ends the image. -/
def Cmd.guard (c : Cmd) (k : Option Nat) (go : FRes) : FRes :=
  match k with
  | some st => c.fail st 0
  | none => go

/-! ## FINDKEY (R52, R232) -/

/-- The status of a media result. -/
def ReadRes.status : ReadRes → Nat
  | .unreachable => 0x0041
  | .unreadable => 0x0040
  | .ok _ => 0x0040

/-- FINDKEY: the entry whose key equals the command's, or the status of a key record that does not read. -/
def findKey (d : Die) (key : Octets) : List DirEntry → Except Nat (Option DirEntry)
  | [] => .ok none
  | e :: rest =>
    match (if e.live then d.chunkRead e 0 else .ok []) with
    | .ok _ => if e.key = key then .ok (some e) else findKey d key rest
    | bad => .error bad.status

/-- The home die's answer to FINDKEY for command c. -/
def State.find (s : State) (c : Cmd) : Except Nat (Option DirEntry) :=
  let d := s.die c.die
  findKey d c.key (d.candidates c.keyHash c.nsid)

/-- Candidates whose key FINDKEY compares and finds different. -/
def skipped (d : Die) (key : Octets) : List DirEntry → Nat
  | [] => 0
  | e :: rest =>
    match (if e.live then d.chunkRead e 0 else .ok []) with
    | .ok _ => if e.key = key then 0 else skipped d key rest + 1
    | .unreadable | .unreachable => 0

def State.skips (s : State) (c : Cmd) : Nat :=
  let d := s.die c.die
  skipped d c.key (d.candidates c.keyHash c.nsid)

/-- Instruction indices from a to b. -/
def span (a b : Nat) : List Nat := (upto (b + 1 - a)).map (fun i => a + i)

/-- The instructions that FINDKEY executes, by their indices in the PUT image (07, the worked PUT). -/
def State.findPcs (s : State) (c : Cmd) : List Nat :=
  span 69 78 ++ (upto (s.skips c)).flatMap (fun _ => span 79 91) ++
  (match s.find c with
  | .error _ => span 79 85 ++ [93]
  | .ok (some _) => span 79 89 ++ [93]
  | .ok none => [79, 80, 81, 92, 93])

/-- The charge of the PUT image's instruction at an index: DUPD, DINS, DLOOK, MREAD and KEYCMP charge 2 (Table 6-6). -/
def putCharge (pc : Nat) : Nat := if [39, 44, 80, 83, 88].contains pc then 2 else 1

/-- The instruction that does not fit the budget, with the charge before it (R163). -/
def cutAt (budget : Nat) : Nat → List Nat → Option (Nat × Nat)
  | _, [] => none
  | n, pc :: rest => if budget < n + putCharge pc then some (pc, n) else cutAt budget (n + putCharge pc) rest

/-- What FINDKEY charges. -/
def State.findCost (s : State) (c : Cmd) : Nat := sumOf putCharge (s.findPcs c)

/-- `go` on the entry found, or the media error, or BUDGET where FINDKEY alone exceeds the budget (log 12). -/
def State.withKey (s : State) (c : Cmd) (go : Option DirEntry → FRes) : FRes :=
  if c.entry.budget < s.findCost c then .budget none
  else match s.find c with
    | .error st => c.fail st 0
    | .ok e => go e

/-- The live object among what FINDKEY found. -/
def liveOf (e : Option DirEntry) : Option DirEntry := e.filter DirEntry.live

/-- VERSION of the object, 0 when absent. -/
def versionOf (e : Option DirEntry) : Nat :=
  match liveOf e with
  | some x => x.version
  | none => 0

/-- COND against EXPECT (R124). -/
def Cmd.condition (c : Cmd) (expect : Nat) (e : Option DirEntry) (go : FRes) : FRes :=
  if c.flag0 && decide (versionOf e ≠ expect) then c.fail 0x0002 (versionOf e) else go

/-- The range of a value that GET and GETSEL send (R122). -/
def rangeLen (nodata : Bool) (len off count : Nat) : Nat :=
  if nodata then 0 else if count = 0 then len - off else min count (len - off)

def rangeSeg (d : Nat) (e : DirEntry) (off n : Nat) : List Seg := if n = 0 then [] else [.range d e.handle off n]

/-! ## The images -/

/-- GET (R122). -/
def State.facGet (s : State) (c : Cmd) : FRes :=
  c.guard (c.keyed (c.badForm true)) (s.withKey c (fun e => match liveOf e with
    | none => c.fail 0x0001 0
    | some e =>
      if e.length < c.p0 then c.fail 0x0016 0
      else c.ok { version := e.version, length := e.length, offset := c.p0, usermeta := e.usermeta.toNat }
        (rangeSeg c.die e c.p0 (rangeLen c.flag0 e.length c.p0 c.p1)) []))

/-- Searches can be resolved: the table is complete and a die holds the lease (R262, R265); no selection arbiter is shut
(R264). -/
def State.searchReady (s : State) : Bool :=
  s.sel.complete && s.allocRuns &&
  (upto 16).all (fun b => !(s.bank b).reloading && !(tabGet (fun _ => {}) s.arbs (bankArb b)).shut)

/-- A match confirmed by the object's key (R53): none when it is not, an error when its key record does not read. -/
def State.confirm (s : State) (c : Cmd) (h : W32) : Except Nat (Option DirEntry) :=
  let d := s.die c.die
  match d.liveBy h with
  | none => .ok none
  | some e => match d.chunkRead e 0 with
    | .ok _ => .ok (if stemOf c.sepEn c.sep e.key = c.key ∧ e.nsid = c.nsid then some e else none)
    | bad => .error bad.status

/-- The first `n` confirmed matches. -/
def State.confirmed (s : State) (c : Cmd) : Nat → List (Nat × Nat × W32) → Except Nat (List (Nat × DirEntry))
  | 0, _ => .ok []
  | _ + 1, [] => .ok []
  | n + 1, m :: rest =>
    match s.confirm c m.2.2 with
    | .error st => .error st
    | .ok none => s.confirmed c (n + 1) rest
    | .ok (some e) => match s.confirmed c n rest with
      | .error st => .error st
      | .ok l => .ok ((m.1, e) :: l)

/-- Matches that are looked at for `n` confirmed ones. -/
def State.examined (s : State) (c : Cmd) : Nat → List (Nat × Nat × W32) → Nat
  | 0, _ => 0
  | _ + 1, [] => 0
  | n + 1, m :: rest =>
    match s.confirm c m.2.2 with
    | .error _ => 1
    | .ok none => s.examined c (n + 1) rest + 1
    | .ok (some _) => s.examined c n rest + 1

/-- The least that a match costs GETSEL: SELNEXT 4, MREAD 2, WAIT 1, KEYCMP 2, HKEY 4 and DLOOK 2 (07, the worked GETSEL; log
12). -/
def matchCost : Nat := 15

/-- GETSEL (R123): `searched` says that SEL_SEARCH_RESULT has resolved and verified its searches. -/
def State.facGetsel (s : State) (c : Cmd) (searched : Bool) : FRes :=
  c.guard (c.keyed (c.badForm true)) (
    if !searched then .wait .search
    else
      let ms := s.sel.matching c.stemHash (w64 c.p0)
      let rank := c.p3 % 65536
      if c.entry.budget < matchCost * s.examined c (rank + 2) ms then .budget none
      else match s.confirmed c (rank + 2) ms with
      | .error st => c.fail st 0
      | .ok l => match l[rank]? with
        | none => c.fail 0x0003 0
        | some (prio, e) =>
          if e.length < c.p1 then c.fail 0x0016 0
          else c.ok { rflags := bit01 (decide (rank + 1 < l.length)) + 2 * bit01 (decide (1 < ms.length))
                      version := e.version, length := e.length, offset := c.p1, usermeta := e.usermeta.toNat
                      d0 := e.key.length + prio * 256, d1 := rank }
            (.octets e.key :: rangeSeg c.die e c.p1 (rangeLen c.flag0 e.length c.p1 c.p2)) [])

/-- DATA stands in both saggar copies (R219). -/
def Cmd.placedOk (c : Cmd) : Bool :=
  match c.data with
  | some p => p.home && p.mirror
  | none => false

/-- The room test of a create, when the ledger has come that far (R298): `go`, or `full`. -/
def State.roomOr (s : State) (c : Cmd) (pend newent : Bool) (len : Nat) (full go : FRes) : FRes :=
  if !(s.die c.die).ledger.appliedBelow c.commit then .wait .ledger
  else if s.hasRoom c.die (c.region % 4) (s.die c.die) pend newent len then go else full

def State.room (s : State) (c : Cmd) (pend newent : Bool) (len : Nat) (go : FRes) : FRes :=
  s.roomOr c pend newent len (c.fail 0x0018 0) go

/-- The instructions that the PUT image executes up to its write, and where it ends without one (07, the worked PUT). -/
def State.putPcs (s : State) (c : Cmd) : List Nat :=
  span 0 14 ++ s.findPcs c ++
  (match s.find c with
  | .error _ => 15 :: span 57 61
  | .ok e =>
    let version := match e with
      | none => span 15 17
      | some e => if e.live then span 15 22 else span 15 21
    let write := span 29 38 ++ (if e.isSome then [39] else span 41 44)
    version ++ (if c.flag0 = false then [23, 24] ++ write
      else if versionOf e = c.p0 then span 23 26 ++ write else span 23 28))

/-- Where the budget ends a PUT before its write. -/
def State.putCut (s : State) (c : Cmd) : Option (Nat × Nat) := cutAt c.entry.budget 0 (s.putPcs c)

/-- Where the budget ends a PUT after its write, which `after` follows. -/
def State.putCutAfter (s : State) (c : Cmd) (after : List Nat) : Option (Nat × Nat) :=
  cutAt c.entry.budget 0 (s.putPcs c ++ after)

/-- `go`, or the end by BUDGET. -/
def within (cut : Option (Nat × Nat)) (go : FRes) : FRes :=
  match cut with
  | some p => .budget (some p)
  | none => go

/-- PUT (R124). -/
def State.facPut (s : State) (c : Cmd) : FRes :=
  let len := c.dataLen
  c.guard (c.keyed (c.badForm false)) (
    if 262144 < len then c.fail 0x0017 0
    else within (s.putCut c) (s.withKey c (fun e => c.condition c.p0 e (
      if !c.placedOk then .wait .saggar
      else
        let reply (x : Staged) : FRes := c.ok { version := c.commit, length := len, usermeta := c.p1 } [] [x]
        match e with
        | some e => within (s.putCutAfter c (40 :: span 47 56)) (reply (.upd e.handle 1 0 len (w64 c.p1)))
        | none => s.roomOr c false false len (within (s.putCutAfter c [45, 46, 68]) (c.fail 0x0018 0))
            (within (s.putCutAfter c ([45, 46] ++ span 47 56)) (reply (.ins (s.newHandle c.die (s.die c.die)) c.keyName 1 0 len (w64 c.p1))))))))

/-- DELETE (R125). -/
def State.facDelete (s : State) (c : Cmd) : FRes :=
  c.guard (c.keyed (c.badForm true)) (s.withKey c (fun e => c.condition c.p0 e (match liveOf e with
    | none => c.fail 0x0001 0
    | some e => c.ok { version := e.version, length := e.length } [] [.del e.handle])))

/-- SDISCARD (R126): `issued` says that its MSDISC has been issued. -/
def State.facSdiscard (s : State) (c : Cmd) (issued : Bool) : FRes :=
  c.guard (c.keyed (c.badForm true)) (s.withKey c (fun e => c.condition c.p0 e (
    if !issued || (s.die c.die).purging c.commit then .wait .erase
    else
      let f : Fields := match liveOf e with
        | some x => { version := x.version, length := x.length }
        | none => {}
      c.ok f [] (match e with
        | some x => [.del x.handle]
        | none => []))))

/-- MPBEGIN (R137). -/
def State.facMpbegin (s : State) (c : Cmd) : FRes :=
  c.guard (c.keyed (c.badForm true)) (
    if 2 ^ 40 < c.p0 then c.fail 0x0017 0
    else s.withKey c (fun e =>
      s.room c true e.isNone c.p0 (c.ok { length := c.p0, d0 := c.commit } []
        [.pend (if e.isNone then some (s.newHandle c.die (s.die c.die)) else none) c.keyName c.p0 (w64 c.p1)])))

/-- The pending put that PUTID names, of the command's key and namespace (R138). -/
def State.putNamed (s : State) (c : Cmd) : Option Pending :=
  ((s.die c.die).put? c.p0).filter (fun p => decide (p.nsid = c.nsid) && decide (p.key = c.key))

/-- A part at `off` of `len` octets breaks the length rule or ends beyond LENGTH (R138). -/
def partRange (p : Pending) (off len : Nat) : Bool :=
  decide (p.length < off + len) || (decide (len % 65536 ≠ 0) && decide (off + len ≠ p.length))

/-- MPPART (R138). -/
def State.facMppart (s : State) (c : Cmd) : FRes :=
  let len := c.dataLen
  let bad := c.badForm false || decide (c.p1 % 65536 ≠ 0) || decide (len = 0)
  c.guard (c.keyed bad) (
    if 262144 < len then c.fail 0x0017 0
    else match s.putNamed c with
      | none => c.fail 0x0005 0
      | some p =>
        if partRange p c.p1 len then c.fail 0x0016 0
        else if !c.placedOk then .wait .saggar
        else
          let chunk := c.p1 / 65536
          let new := ((upto (ceilDiv len 65536)).filter (fun i => !p.held.contains (chunk + i))).length
          c.ok { d0 := p.held.length + new } [] [.part p.putid chunk])

/-- MPCOMMIT (R139). -/
def State.facMpcommit (s : State) (c : Cmd) : FRes :=
  c.guard (c.keyed (c.badForm true)) (match s.putNamed c with
    | none => c.fail 0x0005 0
    | some p => s.withKey c (fun e => c.condition c.p1 e (match p.missing with
      | some i => c.fail 0x0004 i
      | none => match e with
        | none => c.fail 0x0005 0
        | some e => c.ok { version := c.commit, length := p.length, usermeta := p.usermeta.toNat } []
            [.upd e.handle 4 p.putid p.length p.usermeta])))

/-- MPCANCEL (R140). -/
def State.facMpcancel (s : State) (c : Cmd) : FRes :=
  c.guard (c.keyed (c.badForm true)) (match s.putNamed c with
    | none => c.fail 0x0005 0
    | some p => c.ok {} [] [.endPut p.putid])

/-- The command's effect, if it has one here, is still to come. -/
def State.effectDue (s : State) (b : Cmd) : Bool := b.open_ || s.fab.waits.any (fun w => w.commit == b.commit)

/-- Every OWRITE command of the namespace with a lower commit number has ended (R203). -/
def State.succReady (s : State) (commit ns : Nat) : Bool :=
  s.eng.cmds.all (fun b => !(decide (b.commit < commit) && (b.unbound || decide (b.entry.cls = clsOwrite)) && decide (b.nsid = ns) &&
    s.effectDue b))

/-- The package replicates the bucket of a key, or belongs to no generation (R418). -/
def State.replicates (s : State) (ns : Nat) (key : Octets) : Bool :=
  match s.fab.gen with
  | none => true
  | some g => (replicasOf s.hkeyOctets g (bucketOf (s.stemHashOf ns key))).any (fun m => m.uid == Config.uid)

/-- The live objects of a namespace on every store die in service, in key order (R129), of the buckets that the package replicates
(R418). -/
def State.liveKeys (s : State) (ns : Nat) (p : Octets → Bool) : List DirEntry :=
  let all := (upto 4).flatMap (fun d => if (s.die d).online then
    ((s.die d).dir.filter (fun e => e.2.live && decide (e.2.nsid = ns) && p e.2.key && s.replicates ns e.2.key)).map (fun e => e.2) else [])
  all.foldl (fun acc e =>
    acc.takeWhile (fun x => decide (octetsCmp x.key e.key < 0)) ++ e ::
      acc.dropWhile (fun x => decide (octetsCmp x.key e.key < 0))) []

/-- A SCAN entry (Table 4-7). -/
def scanEntry (e : DirEntry) : Octets :=
  [BitVec.ofNat 8 e.key.length] ++ beOctets 8 e.version ++ beOctets 8 e.length ++ beOctets 8 e.usermeta.toNat ++ e.key

/-- Large-response units of store die d in use (R169). -/
def State.unitsUsed (s : State) (d : Nat) : Nat :=
  (s.eng.cmds.filter (fun c => c.large && decide (c.die = d))).length +
  (s.eng.ctxs.filter (fun e => decide (e.1 / 1024 = d) && (match e.2 with
    | some v => v.large
    | none => false))).length

/-- SCAN (R129, R233): `large` says that the invocation holds a large-response unit. -/
def State.facScan (s : State) (c : Cmd) (large : Bool) : FRes :=
  let maxent := c.p0 % 8192
  let resume := msgData c.msg
  if c.badForm false ∨ 255 < c.dataLen ∨ maxent = 0 ∨ 4096 < maxent then c.fail 0x0010 0
  else if c.nsBad then c.fail 0x0013 0
  else if !s.succReady c.commit c.nsid then .wait .succ
  else
    let keys := s.liveKeys c.nsid (fun k => startsWith c.key k && decide (octetsCmp resume k < 0))
    let n := min maxent 2048
    let body := (keys.take n).flatMap scanEntry
    if 4096 < 64 + body.length ∧ large = false then .wait .large
    else c.ok { rflags := bit01 (decide (n < keys.length)), d0 := min n keys.length } [.octets body] []

/-- KEY and DATA are none. -/
def Cmd.noKeyData (c : Cmd) : Bool := decide (msgKeyLen c.msg = 0) && decide (c.msgLen ≤ 40)

/-- FLUSH (R141). -/
def State.facFlush (s : State) (c : Cmd) : FRes :=
  if c.badForm true ∨ c.noKeyData = false then c.fail 0x0010 0
  else if !c.flag0 && c.nsBad then c.fail 0x0013 0
  else if s.unflushed c.commit (fun n => c.flag0 || decide (n = c.nsid)) then .wait .fence
  else c.ok {} [] []

/-- FENCE (R142). -/
def State.facFence (s : State) (c : Cmd) : FRes :=
  if c.badForm true ∨ c.noKeyData = false then c.fail 0x0010 0
  else if s.fenceMet c c.flag0 then c.ok {} [] [] else .wait .fence

/-- ABORT's reply (R145, R230). -/
def State.facAbort (_ : State) (c : Cmd) : FRes :=
  if c.badForm true ∨ c.noKeyData = false then c.fail 0x0010 0
  else c.ok { d0 := c.p1, d1 := c.p2 } [] []

/-- The counters of STAT (R131, R231). -/
def State.statBody (s : State) (c : Cmd) : Octets :=
  if c.p0 % 256 = 0 then
    let objs := (upto 4).flatMap (fun d => ((s.die d).dir.filter (fun e => e.2.live && decide (e.2.nsid = c.nsid))).map (fun e => e.2))
    let puts := (upto 4).flatMap (fun d => (s.die d).allPuts.filter (fun p => decide (p.nsid = c.nsid)))
    beOctets 8 objs.length ++ beOctets 8 (sumOf (fun e => e.length) objs) ++ beOctets 8 puts.length
  else
    beOctets 8 s.eng.cmds.length ++ beOctets 8 s.wot.gate.length ++
    beOctets 8 (sumOf (fun d => (s.die d).putCount) (upto 4)) ++
    beOctets 8 (sumOf (fun d => 67108864 - (s.die d).slotCount) (upto 4))

/-- STAT (R131). -/
def State.facStat (s : State) (c : Cmd) : FRes :=
  let sel := c.p0 % 256
  if c.badForm true ∨ c.noKeyData = false ∨ 1 < sel then c.fail 0x0010 0
  else if sel = 0 ∧ c.nsBad then c.fail 0x0013 0
  else c.ok {} [.octets (s.statBody c)] []

/-- SELPUT (R128, R209). -/
def State.facSelput (s : State) (c : Cmd) : FRes :=
  c.guard (c.keyed (c.badForm true)) (s.withKey c (fun e => match liveOf e with
    | none => c.fail 0x0001 0
    | some e =>
      let rm := w64 c.p0
      let prio := c.p3 % 65536
      match s.sel.same rm c.stemHash e.handle with
      | some i => c.ok { version := e.version, d0 := 2 } [] [.row i rm c.stemHash prio e.handle false]
      | none =>
        if !(s.sel.appliedBelow c.commit && s.allocRuns) then .wait .alloc
        else match s.sel.place c.stemHash with
          | none => c.fail 0x0018 0
          | some i => c.ok { version := e.version, d0 := 1 } [] [.row i rm c.stemHash prio e.handle true]))

/-- SELDEL (R128). -/
def State.facSeldel (s : State) (c : Cmd) : FRes :=
  c.guard (c.keyed (c.badForm true)) (s.withKey c (fun e => match liveOf e with
    | none => c.fail 0x0001 0
    | some e =>
      let rows := if c.flag0 then s.sel.ofHandle c.stemHash e.handle
        else (s.sel.same (w64 c.p0) c.stemHash e.handle).toList
      if rows = [] then c.fail 0x0001 0
      else c.ok { d0 := rows.length } [] (rows.map Staged.rowDel)))

/-- The image of a default opcode. -/
def State.factory (s : State) (c : Cmd) (op : Nat) (v : Inv) : FRes :=
  match op with
  | 0x01 => s.facGet c
  | 0x02 => s.facGetsel c v.searched
  | 0x03 => s.facPut c
  | 0x04 => s.facDelete c
  | 0x05 => s.facSdiscard c v.erased
  | 0x08 => s.facMpbegin c
  | 0x09 => s.facMppart c
  | 0x0A => s.facMpcommit c
  | 0x0B => s.facMpcancel c
  | 0x10 => s.facScan c v.large
  | 0x11 => s.facFlush c
  | 0x12 => s.facFence c
  | 0x13 => s.facAbort c
  | 0x14 => s.facStat c
  | 0x18 => s.facSelput c
  | _ => s.facSeldel c

/-- Rows that a staged list creates stay reserved until the allocator applies it (R250). -/
def State.reserveRows (s : State) (commit : Nat) (staged : List Staged) : State :=
  let fresh := staged.filterMap (fun x => match x with
    | .row i _ _ _ _ true => some (i, commit)
    | _ => none)
  { s with sel := { s.sel with reserved := s.sel.reserved ++ fresh } }

/-- DETAIL0 of a BUDGET or HFAULT end (R178). -/
def faultDetail (fcode pc charged : Nat) : Nat := fcode + pc * 2 ^ 16 + charged * 2 ^ 32

/-- A factory image ends with BUDGET, its changes discarded (R163, R176, R178). -/
def State.facBudget (s : State) (x : CtxId) (c : Cmd) (v : Inv) (place : Option (Nat × Nat)) : State :=
  match place with
  | some p => (s.freeCtx x).endDiscard c (c.built 0x0020 (faultDetail 0 p.1 p.2)) v.large
  | none =>
    let f := s.free
    let d0 := faultDetail 0 (f.1.toNat % 2 ^ 14) (f.1.toNat / 2 ^ 16 % 2 ^ 16)
    (f.2.freeCtx x).endDiscard c (c.built 0x0020 d0) v.large

/-- What a run of a factory image comes to: a wait, or its end, which frees the context (R176). Changes wait while their home die
holds them back (R334, R337), and are looked at again at LEDGER_ROOM_READY (log 26). -/
def State.settleFac (s : State) (x : CtxId) (op : Nat) (c : Cmd) (v : Inv) : FRes → State
  | .wait .large =>
    let t := s.modInv x (fun v => { v with wait := .factory .large })
    let q := tabGet (fun _ => []) t.eng.largeQ c.die
    let id := match x with
      | .eng e k => e * 8 + k
      | .mgmt _ => 0
    let q' := if q.contains id then q else q ++ [id]
    { t with eng := { t.eng with largeQ := tabSet (fun _ => []) t.eng.largeQ c.die q' } }
  | .wait w => s.modInv x (fun v => { v with wait := .factory w })
  | .budget place => s.facBudget x c v place
  | .done st segs staged =>
    if decide (st = 0) && (s.die c.die).applyHeld staged then s.modInv x (fun v => { v with wait := .factory .ledger })
    else
    let t := if op = 0x12 ∧ st = 0 then s.modCmd c.commit (fun c => { c with fenced := true }) else s
    let t := (t.freeCtx x).reserveRows c.commit staged
    if st = 0 then (t.endApply c none [] staged segs v.erased v.large).flushOrigin c.die else t.endDiscard c segs v.large

/-- A factory image in context x is run over the present state; the MSDISC of SDISCARD is issued once (R214). -/
def State.runFactory (s : State) (x : CtxId) : State :=
  match s.inv x with
  | none => s
  | some v => match v.image, s.cmd? v.commit with
    | .factory op, some c =>
      let r := s.factory c op v
      if r = .wait .erase ∧ v.erased = false then
        let t := s.modDie c.die (fun d => d.markPurge s.geo (c.region % 4) c.commit c.keyHash)
        let v' := { v with erased := true }
        (t.setInv x (some v')).settleFac x op c v' (t.factory c op v')
      else s.settleFac x op c v r
    | _, _ => s

/-- The handler of a default opcode starts in context `k` of the command's home engine (R161). -/
def State.startFactory (s : State) (op commit k : Nat) : State :=
  match s.cmd? commit with
  | none => s
  | some c =>
    let x := CtxId.eng c.engine k
    let due := match s.nextFor c.engine with
      | some n => decide (n.commit = commit)
      | none => false
    whenDo (decide (c.image = some (Image.factory op)) && due && (s.inv x).isNone &&
      !s.masked.contains (enginePlace c.engine) && s.mode.mode.serving)
      s ((s.take c x (s.startInv c (.factory op))).runFactory x)

/-- A context whose factory image waits for `w` is run again. -/
def State.resume (s : State) (x : CtxId) (w : Why) : State :=
  match s.inv x with
  | some v => whenDo (decide (v.wait = Wait.factory w)) s (s.runFactory x)
  | none => s

end Sys2Proof.Machine
end

