-- ==== Sys2Proof/Machine/Mgmt.lean ====
section
/-! DEFINITION. Responses to Transom requests (R510) and the ends of management programs (R521). -/

namespace Sys2Proof.Machine

/-- A Transom response head (Table 18-2). -/
def transomHead (tstatus code tag commit : Nat) : Octets :=
  beOctets 2 tstatus ++ beOctets 2 code ++ beOctets 2 tag ++ zeros 2 ++ beOctets 8 commit

/-- CODE of a Transom request. -/
def TReq.code (r : TReq) : Nat := headAt r.msg 6 2

/-- The body of a Transom request, from octet 16. -/
def TReq.body (r : TReq) : Octets := r.msg.drop 16

/-- The request at the front ends: its response joins the connection's, or is discarded and no longer outstanding. -/
def State.tRespond (s : State) (r : TReq) (tstatus : Nat) (body : Octets) : State :=
  let t : State := { s with eng := { s.eng with treqs := s.eng.treqs.drop 1 } }
  let q := t.queueRsp r.conn r.gen
    { tag := r.tag, commit := r.commit, segs := [.octets (transomHead tstatus r.code r.tag r.commit ++ body)] }
  if q.2 then q.1 else { q.1 with wot := { q.1.wot with outstanding := q.1.wot.outstanding - 1 } }

/-- An answer of REASON and seven zero octets. -/
def State.tReason (s : State) (r : TReq) (reason : Nat) : State := s.tRespond r 0 (BitVec.ofNat 8 reason :: zeros 7)

/-- The octets of a program's staged output: programs stage no ranges (R175). -/
def segOctets : Seg → Octets
  | .octets o => o
  | .range _ _ _ _ => []

/-- A program ends on the management engine of DIE d: REASON and what follows go to the PRUN that ran it; a run of MP_TRIG
has no response (R521). -/
def State.progEnd (s : State) (d : Nat) (v : Inv) (reason : Nat) (out : Octets) : State :=
  let t := s.freeCtx (.mgmt d)
  match v.work, t.eng.treqs with
  | .program _ (some n), r :: _ =>
    if r.commit = n ∧ r.started then t.tRespond r 0 ([BitVec.ofNat 8 reason] ++ zeros 7 ++ out) else t
  | _, _ => t

/-- An invocation ends by a fault, or with fault code 0 by its budget (R163, R176, R178, R179). -/
def State.invFault (s : State) (x : CtxId) (v : Inv) (fcode pc charged : Nat) : State :=
  let d0 := faultDetail fcode pc charged
  match v.work, x with
  | .command n, _ =>
    (match s.cmd? n with
    | some c => (s.freeCtx x).endDiscard c (c.built (if fcode = 0 then 0x0020 else 0x0021) d0) v.large
    | none => s.freeCtx x)
  | .program _ _, .mgmt d => s.progEnd d v (if fcode = 0 then 3 else 2) (beOctets 8 d0)
  | .program _ _, .eng _ _ => s.freeCtx x

end Sys2Proof.Machine
end

