-- ==== Sys2Proof/Machine/Nirm.lean ====
section
/-! DEFINITION. Nirm (06): instruction words, the order of checks of R188, registers, scratch, window and response area,
string descriptors. The instructions are in NirmAlu, NirmMem, NirmStore and NirmSync. -/

namespace Sys2Proof.Machine

/-! ## Instruction words (Tables 6-3, 6-6) -/

def wOp (w : W32) : Nat := field w 24 8
def wRd (w : W32) : Nat := field w 20 4
def wRa (w : W32) : Nat := field w 16 4
/-- rb of format A, rc of format D. -/
def wRb (w : W32) : Nat := field w 12 4
/-- func of format A, off12 of format D. -/
def wFunc (w : W32) : Nat := field w 0 12
def wImm16 (w : W32) : Nat := field w 0 16
def wImm20 (w : W32) : Nat := field w 0 20

/-- The instructions of Table 6-6, with the functions that Table 6-7, R195 and R217 tell apart. -/
inductive Op where
  | alu (f : Nat)
  | ext | dep | addi | andi | ori | xori | shli | shri | sari | li | lsh
  | set (c : Nat)
  | branch (c : Nat)
  | bz | bnz | jmp | jr | call
  | ld (k : Nat) | st (k : Nat) | wl (k : Nat) | rs (k : Nat)
  | keycmp (f : Nat) | keycpy | crc | hkey
  | dlook | dins | dupd | ddel | sel | selnext | sadd | sdel
  | mread | mwrite | mdisc | msdisc | emit | emitd
  | fence (f : Nat)
  | lock | unlk
  | wait (t : Nat)
  | done | fail | yield | log | mfs | mts | rdtime | rdcyc | rdreg | wrreg
deriving DecidableEq, Repr

/-- The instruction when its unused fields are 0 (R185). -/
def guardOp (ok : Bool) (o : Op) : Option Op := if ok then some o else none

/-- The instruction that a word encodes; none where it faults with ILLEGAL (R185). -/
def opOf (w : W32) : Option Op :=
  let rd := wRd w
  let ra := wRa w
  let rb := wRb w
  let fn := wFunc w
  let z (l : List Nat) : Bool := l.all (fun n => n == 0)
  match wOp w with
  | 0x10 => guardOp (decide (fn ≤ 0x00A)) (.alu fn)
  | 0x11 => guardOp (z [rb] && decide (fn % 64 + fn / 64 + 1 ≤ 64)) .ext
  | 0x12 => guardOp (z [rb] && decide (fn % 64 + fn / 64 + 1 ≤ 64)) .dep
  | 0x18 => some .addi
  | 0x19 => some .andi
  | 0x1A => some .ori
  | 0x1B => some .xori
  | 0x1C => guardOp (z [wImm16 w / 64]) .shli
  | 0x1D => guardOp (z [wImm16 w / 64]) .shri
  | 0x1E => guardOp (z [wImm16 w / 64]) .sari
  | 0x20 => some .li
  | 0x21 => some .lsh
  | 0x28 => guardOp (decide (fn ≤ 5)) (.set fn)
  | 0x30 => some (.branch 0)
  | 0x31 => some (.branch 1)
  | 0x32 => some (.branch 2)
  | 0x33 => some (.branch 3)
  | 0x34 => some (.branch 4)
  | 0x35 => some (.branch 5)
  | 0x36 => guardOp (z [ra]) .bz
  | 0x37 => guardOp (z [ra]) .bnz
  | 0x38 => guardOp (z [rd]) .jmp
  | 0x39 => guardOp (z [rd, rb, fn]) .jr
  | 0x40 => some (.ld 0)
  | 0x41 => some (.ld 1)
  | 0x42 => some (.ld 2)
  | 0x43 => some (.ld 3)
  | 0x44 => some (.st 0)
  | 0x45 => some (.st 1)
  | 0x46 => some (.st 2)
  | 0x47 => some (.st 3)
  | 0x48 => some (.wl 0)
  | 0x49 => some (.wl 1)
  | 0x4A => some (.wl 2)
  | 0x4B => some (.wl 3)
  | 0x4C => some (.rs 0)
  | 0x4D => some (.rs 1)
  | 0x4E => some (.rs 2)
  | 0x4F => some (.rs 3)
  | 0x50 => guardOp (decide (fn ≤ 1)) (.keycmp fn)
  | 0x51 => guardOp (z [fn]) .keycpy
  | 0x54 => guardOp (z [rb, fn]) .crc
  | 0x55 => guardOp (z [fn]) .hkey
  | 0x58 => some .dlook
  | 0x59 => guardOp (z [ra]) .dins
  | 0x5A => some .dupd
  | 0x5B => guardOp (z [rb, fn]) .ddel
  | 0x60 => some .sel
  | 0x61 => some .selnext
  | 0x62 => guardOp (z [ra, rb]) .sadd
  | 0x63 => guardOp (z [ra]) .sdel
  | 0x68 => guardOp (decide (rd < 8)) .mread
  | 0x69 => guardOp (decide (rd < 8)) .mwrite
  | 0x6A => guardOp (decide (rd < 8) && z [rb, fn]) .mdisc
  | 0x6B => guardOp (decide (rd < 8) && z [rb, fn]) .msdisc
  | 0x70 => guardOp (z [rd, fn]) .emit
  | 0x71 => guardOp (z [fn]) .emitd
  | 0x78 => guardOp (z [rd, ra, rb] && decide (fn ≤ 3)) (.fence fn)
  | 0x79 => guardOp (z [rb, fn]) .lock
  | 0x7A => guardOp (z [rd, rb, fn]) .unlk
  | 0x7B => guardOp (z [ra, rb] && decide (fn ≤ 8)) (.wait fn)
  | 0x80 => guardOp (z [rd, wImm20 w]) .done
  | 0x81 => guardOp (z [rd, wImm20 w / 65536]) .fail
  | 0x82 => guardOp (z [rd, wImm20 w]) .yield
  | 0x83 => some .call
  | 0x88 => guardOp (z [rd]) .log
  | 0x8C => guardOp (z [ra, rb] && decide (fn ≤ 5)) .mfs
  | 0x8D => guardOp (z [rd, rb] && decide (fn = 2)) .mts
  | 0x90 => guardOp (z [wImm20 w]) .rdtime
  | 0x91 => guardOp (z [wImm20 w]) .rdcyc
  | 0x98 => guardOp (z [fn]) .rdreg
  | 0x99 => guardOp (z [fn]) .wrreg
  | _ => none

/-- The operand fields of an instruction word: rd, ra, rb (rc of format D) and the low 12 bits. The 16-bit immediate of
format B is rb and the low 12 bits, the 20-bit one of formats C and E is ra, rb and the low 12 bits (Table 6-3). -/
structure OpFields where
  rd : Nat
  ra : Nat
  rb : Nat
  fn : Nat
deriving DecidableEq, Repr

/-- The fields as a word holds them. -/
def fieldsOf (w : W32) : OpFields := { rd := wRd w, ra := wRa w, rb := wRb w, fn := wFunc w }

/-- OPCODE of an instruction (Table 6-6). -/
def Op.opcode : Op → Nat
  | .alu _ => 0x10 | .ext => 0x11 | .dep => 0x12
  | .addi => 0x18 | .andi => 0x19 | .ori => 0x1A | .xori => 0x1B | .shli => 0x1C | .shri => 0x1D | .sari => 0x1E
  | .li => 0x20 | .lsh => 0x21 | .set _ => 0x28 | .branch c => 0x30 + c | .bz => 0x36 | .bnz => 0x37 | .jmp => 0x38 | .jr => 0x39
  | .ld k => 0x40 + k | .st k => 0x44 + k | .wl k => 0x48 + k | .rs k => 0x4C + k
  | .keycmp _ => 0x50 | .keycpy => 0x51 | .crc => 0x54 | .hkey => 0x55
  | .dlook => 0x58 | .dins => 0x59 | .dupd => 0x5A | .ddel => 0x5B
  | .sel => 0x60 | .selnext => 0x61 | .sadd => 0x62 | .sdel => 0x63
  | .mread => 0x68 | .mwrite => 0x69 | .mdisc => 0x6A | .msdisc => 0x6B | .emit => 0x70 | .emitd => 0x71
  | .fence _ => 0x78 | .lock => 0x79 | .unlk => 0x7A | .wait _ => 0x7B
  | .done => 0x80 | .fail => 0x81 | .yield => 0x82 | .call => 0x83 | .log => 0x88 | .mfs => 0x8C | .mts => 0x8D
  | .rdtime => 0x90 | .rdcyc => 0x91 | .rdreg => 0x98 | .wrreg => 0x99

/-- The fields that an instruction admits: its unused fields 0, its function code or target in the low bits (Tables 6-3, 6-6). -/
def Op.admits (o : Op) (f : OpFields) : Bool :=
  decide (f.rd < 16) && decide (f.ra < 16) && decide (f.rb < 16) && decide (f.fn < 4096) &&
  (match o with
  | .alu c => decide (c ≤ 10) && decide (f.fn = c)
  | .ext | .dep => decide (f.rb = 0) && decide (f.fn % 64 + f.fn / 64 + 1 ≤ 64)
  | .addi | .andi | .ori | .xori | .li | .lsh | .call | .dlook | .dupd | .sel | .selnext => true
  | .shli | .shri | .sari => decide (f.rb = 0) && decide (f.fn < 64)
  | .set c => decide (c ≤ 5) && decide (f.fn = c)
  | .branch c => decide (c ≤ 5)
  | .bz | .bnz | .dins | .sdel => decide (f.ra = 0)
  | .jmp | .log => decide (f.rd = 0)
  | .jr | .unlk => decide (f.rd = 0) && decide (f.rb = 0) && decide (f.fn = 0)
  | .ld k | .st k | .wl k | .rs k => decide (k ≤ 3)
  | .keycmp c => decide (c ≤ 1) && decide (f.fn = c)
  | .keycpy | .hkey | .emitd | .rdreg | .wrreg => decide (f.fn = 0)
  | .crc | .ddel | .lock => decide (f.rb = 0) && decide (f.fn = 0)
  | .sadd => decide (f.ra = 0) && decide (f.rb = 0)
  | .mread | .mwrite => decide (f.rd < 8)
  | .mdisc | .msdisc => decide (f.rd < 8) && decide (f.rb = 0) && decide (f.fn = 0)
  | .emit => decide (f.rd = 0) && decide (f.fn = 0)
  | .fence c => decide (c ≤ 3) && decide (f.rd = 0) && decide (f.ra = 0) && decide (f.rb = 0) && decide (f.fn = c)
  | .wait c => decide (c ≤ 8) && decide (f.ra = 0) && decide (f.rb = 0) && decide (f.fn = c)
  | .done | .yield => decide (f.rd = 0) && decide (f.ra = 0) && decide (f.rb = 0) && decide (f.fn = 0)
  | .fail => decide (f.rd = 0) && decide (f.ra = 0)
  | .mfs => decide (f.ra = 0) && decide (f.rb = 0) && decide (f.fn ≤ 5)
  | .mts => decide (f.rd = 0) && decide (f.rb = 0) && decide (f.fn = 2)
  | .rdtime | .rdcyc => decide (f.ra = 0) && decide (f.rb = 0) && decide (f.fn = 0))

/-- The word of an instruction with its fields (Table 6-3). -/
def encodeOp (o : Op) (f : OpFields) : W32 :=
  BitVec.ofNat 32 (o.opcode * 2 ^ 24 + f.rd * 2 ^ 20 + f.ra * 2 ^ 16 + f.rb * 2 ^ 12 + f.fn)

/-- The charge of an instruction (Table 6-6). -/
def Op.charge : Op → Nat
  | .keycmp _ | .keycpy | .dlook | .dins | .dupd | .ddel | .mread | .mwrite | .mdisc | .msdisc | .emitd | .lock => 2
  | .crc | .hkey | .sel | .selnext | .sadd | .sdel => 4
  | .alu _ | .ext | .dep | .addi | .andi | .ori | .xori | .shli | .shri | .sari | .li | .lsh | .set _ | .branch _ | .bz
  | .bnz | .jmp | .jr | .call | .ld _ | .st _ | .wl _ | .rs _ | .emit | .fence _ | .unlk | .wait _ | .done | .fail | .yield
  | .log | .mfs | .mts | .rdtime | .rdcyc | .rdreg | .wrreg => 1

/-- Fault codes (Table 5-8). -/
def fIllegal : Nat := 0x0001
def fPriv : Nat := 0x0002
def fClass : Nat := 0x0003
def fWindow : Nat := 0x0004
def fScratch : Nat := 0x0005
def fPc : Nat := 0x0006
def fRspLimit : Nat := 0x0007
def fNoHead : Nat := 0x0008
def fFailCode : Nat := 0x0009
def fSlot : Nat := 0x000A
def fLockHeld : Nat := 0x000B
def fWaitLimit : Nat := 0x000C
def fOperand : Nat := 0x000D

/-! ## Registers and areas -/

/-- g[n]. -/
def Inv.g (v : Inv) (n : Nat) : W64 := tabGet (fun _ => 0) v.regs n

def Inv.setG (v : Inv) (n : Nat) (x : W64) : Inv := { v with regs := tabSet (fun _ => 0) v.regs n x }

/-- The canonical form of an area: offsets strictly rising, no octet listed that is 0, which is what an unlisted offset reads
as (R162, log 96). -/
def Memory.wf (m : List Host.Cell) : Bool := tabWf (fun _ => 0#8) m

/-- `n` octets of an area from offset a. -/
def memRead (m : Mem) (a n : Nat) : Octets := (upto n).map (fun i => tabGet (fun _ => 0#8) m (a + i))

/-- `o` written to an area from offset a. -/
def memWrite (m : Mem) (a : Nat) : Octets → Mem
  | [] => m
  | b :: rest => memWrite (tabSet (fun _ => 0#8) m a b) (a + 1) rest

/-- Scratch octets (R167). -/
def Inv.scr (v : Inv) (a n : Nat) : Octets := memRead v.scratch a n

def Inv.setScr (v : Inv) (a : Nat) (o : Octets) : Inv := { v with scratch := memWrite v.scratch a o }

/-- Message octets as a window load sees them (R168). -/
def Inv.win (v : Inv) (a n : Nat) : Octets :=
  (upto n).map (fun i => if a + i < v.msgLen then v.msg.getD (a + i) 0 else 0)

/-- First offset that a window load must not reach (R168). -/
def Inv.winEnd (v : Inv) : Nat :=
  let all := max 40 v.msgLen
  if v.dsag then min all (40 + headAt v.msg 10 1) else all

/-- The media slot k. -/
def Inv.slot (v : Inv) (k : Nat) : MediaSlot := tabGet (fun _ => .idle) v.slots k

def Inv.setSlot (v : Inv) (k : Nat) (m : MediaSlot) : Inv := { v with slots := tabSet (fun _ => .idle) v.slots k m }

/-- The NSID of the command in the window. -/
def Inv.nsid (v : Inv) : Nat := msgNsid v.msg

/-- sext of R192's helpers. -/
def sext (bits : Nat) (n : Nat) : W64 := (BitVec.ofNat bits n).signExtend 64

/-- The address of a load or store (R196). -/
def Inv.addr (v : Inv) (w : W32) : Nat := (v.g (wRa w) + sext 16 (wImm16 w)).toNat

/-! ## One instruction (R188, R189) -/

/-- What an instruction comes to: a fault, the next instruction, a transfer, a wait, or the end of the invocation. -/
inductive NRes where
  | fault (code : Nat)
  | next (s : State) (v : Inv)
  | jump (v : Inv) (target : Int)
  | pause (s : State) (v : Inv) (w : Wait)
  | ended (s : State)
deriving DecidableEq, Repr

/-- The word that context v stands on; factory images have no words (log 12). -/
def Inv.word (v : Inv) : Option W32 :=
  match v.image with
  | .words ws => ws[v.pc]?
  | .factory _ => none

/-- The invocation goes on at `pc` with the charge counted. -/
def Inv.advance (v : Inv) (pc charge : Nat) (w : Wait) : Inv :=
  { v with pc := pc, waitPc := v.pc, waitCharge := v.charged, charged := v.charged + charge, wait := w }

/-- Context x can issue: it runs an image of words and waits for nothing (R148). -/
def State.canIssue (s : State) (x : CtxId) : Bool :=
  match s.inv x with
  | some v => v.word.isSome && decide (v.wait = Wait.none)
  | none => false

/-- The context of engine e that issued last; after reset the rotation starts with context 0 (log 107). -/
def State.lastIssued (s : State) (e : Nat) : Nat := tabGet (fun _ => 7) s.eng.issued e

/-- No context of the engine that comes before x in the rotation can issue (R148). -/
def State.turn (s : State) (x : CtxId) : Bool :=
  match x with
  | .mgmt _ => true
  | .eng e k =>
    let first := s.lastIssued e + 1
    (upto ((k + 15 - s.lastIssued e) % 8)).all (fun i => !s.canIssue (.eng e ((first + i) % 8)))

/-- Context x has issued: it stands at the end of the rotation, as after a YIELD (R148, R165). -/
def State.issueBy (s : State) (x : CtxId) : State :=
  match x with
  | .mgmt _ => s
  | .eng e k => { s with eng := { s.eng with issued := tabSet (fun _ => 7) s.eng.issued e k } }

/-- The wait is for the directory port of the engine's cluster (R149, R164). -/
def Wait.directory : Wait → Bool
  | .lookup _ _ _ _ _ | .putRec _ _ _ | .upd _ _ _ _ | .del _ _ => true
  | .ins _ _ _ room => room.isSome
  | .none | .succ _ _ _ _ | .sel _ _ _ _ | .selNext _ _ _ _ _ _ | .sadd _ _ _ _ _ | .slot _ _ | .saggar _ | .lock _ _
  | .fence _ | .large _ _ | .icache | .spill | .window | .rdreg _ _ _ | .wrreg _ _ _ | .factory _ => false

/-- Context x waits as invocation v says; a directory request joins the order of its port (R149). -/
def State.park (s : State) (x : CtxId) (v : Inv) : State :=
  if v.wait.directory then
    State.setInv { s with eng := { s.eng with dirSeq := s.eng.dirSeq + 1 } } x (some { v with ticket := s.eng.dirSeq })
  else s.setInv x (some v)

/-- The instruction that context x stands on, when a row asks for it and the rotation has come to x (R148): `asks` tells from the
decoded instruction and the invocation whether it is the row's. A word that does not decode faults whichever row executes it. -/
def State.nirm (s : State) (x : CtxId) (asks : Op → Inv → Bool) (act : Inv → W32 → NRes) : State :=
  match s.inv x with
  | none => s
  | some v => match v.word, decide (v.wait = Wait.none) with
    | some w, true =>
      if s.turn x = false then s
      else
      (match opOf w with
      | none => (s.invFault x v fIllegal v.pc v.charged).issueBy x
      | some o =>
        if asks o v = false then s
        else if v.budget < v.charged + o.charge then (s.invFault x v 0 v.pc v.charged).issueBy x
        else match act v w with
          | .fault code => (s.invFault x v code v.pc v.charged).issueBy x
          | .next t u =>
            if v.pc + 1 < v.len then (t.setInv x (some (u.advance (v.pc + 1) o.charge .none))).issueBy x
            else (s.invFault x v fPc v.pc v.charged).issueBy x
          | .jump u target =>
            if 0 ≤ target ∧ target < v.len then (s.setInv x (some (u.advance target.toNat o.charge .none))).issueBy x
            else (s.invFault x v fPc v.pc v.charged).issueBy x
          | .pause t u wt =>
            if v.pc + 1 < v.len then (t.park x (u.advance (v.pc + 1) o.charge wt)).issueBy x
            else (s.invFault x v fPc v.pc v.charged).issueBy x
          | .ended t => t.issueBy x)
    | _, _ => s

/-- The execution of one Nirm instruction as a command. -/
def runNirm (s : State) (x : CtxId) (asks : Op → Inv → Bool) (act : Inv → W32 → NRes) : Out :=
  outcome (Wf.ctxId x) (s.nirm x asks act)

/-- The row is for one instruction. -/
def isOp (o : Op) : Op → Inv → Bool := fun p _ => decide (p = o)

/-- Writing g[rd] and going on. -/
def setRd (s : State) (v : Inv) (w : W32) (x : W64) : NRes := .next s (v.setG (wRd w) x)

/-- Directory, selection, media instructions, EMITD and FENCE are for request engines (R175, R217). -/
def unpriv (x : CtxId) (go : NRes) : NRes :=
  match x with
  | .eng _ _ => go
  | .mgmt _ => .fault fPriv

/-! ## Strings (R187) -/

/-- A string descriptor (Table 6-4). -/
structure StrDesc where
  off : Nat
  len : Nat
  space : Nat
deriving DecidableEq, Repr

/-- A descriptor with SPACE 3 or reserved bits is rejected. -/
def strDesc (d : W64) : Option StrDesc :=
  let n := d.toNat
  if bitsOf n 32 2 = 3 ∨ bitsOf n 34 30 ≠ 0 then none
  else some { off := bitsOf n 0 16, len := bitsOf n 16 16, space := bitsOf n 32 2 }

/-- The fault of a string that reaches outside its space. -/
def Inv.strReach (v : Inv) (d : StrDesc) : Option Nat :=
  if d.len = 0 then none
  else match d.space with
    | 0 => if v.winEnd < d.off + d.len then some fWindow else none
    | 1 => if 65536 < d.off + d.len then some fScratch else none
    | _ => if 256 < d.off + d.len then some fRspLimit else none

/-- The octets of a string. -/
def Inv.str (v : Inv) (d : StrDesc) : Octets :=
  match d.space with
  | 0 => v.win d.off d.len
  | 1 => v.scr d.off d.len
  | _ => memRead v.rsp d.off d.len

/-- The wait that an access to a string needs (R164). -/
def strWait (d : StrDesc) : Wait :=
  match d.space with
  | 0 => if 512 < d.off + d.len ∧ 0 < d.len then .window else .none
  | 1 => if 4096 < d.off + d.len ∧ 0 < d.len then .spill else .none
  | _ => .none

/-- The first wait of two. -/
def orWait (a b : Wait) : Wait := if a = .none then b else a

/-- Going on, or waiting first. -/
def nextWait (s : State) (v : Inv) (w : Wait) : NRes := if w = .none then .next s v else .pause s v w

/-- A check that faults. -/
def orFault (f : Option Nat) (go : NRes) : NRes :=
  match f with
  | some c => .fault c
  | none => go

/-- A condition that must hold, else a fault. -/
def need (ok : Bool) (code : Nat) (go : NRes) : NRes := if ok then go else .fault code

end Sys2Proof.Machine
end

