-- ==== Sys2Proof/Machine/NirmAlu.lean ====
section
/-! DEFINITION. Integer operations, immediates, compare and branch, scratch, window and response accesses, strings (R193 to
R200). -/

namespace Sys2Proof.Machine

/-! ## ALU functions (Table 6-7) -/

/-- The quotient of DIVU, all ones for a divisor of 0. -/
def divuOf (a b : W64) : W64 := if b = 0 then BitVec.allOnes 64 else a / b

/-- The remainder of REMU, the dividend for a divisor of 0. -/
def remuOf (a b : W64) : W64 := if b = 0 then a else a % b

/-- A shift amount: bits [5:0]. -/
def shAmt (b : W64) : Nat := b.toNat % 64

/-- An ALU instruction. -/
def aluRow (x : CtxId) (f : Nat) (op : W64 → W64 → W64) (s : State) : Out :=
  runNirm s x (isOp (.alu f)) (fun v w => setRd s v w (op (v.g (wRa w)) (v.g (wRb w))))

/-- ADD (R193). -/
def execAdd (x : CtxId) (s : State) : Out := aluRow x 0 (fun a b => a + b) s

/-- SUB (R193). -/
def execSub (x : CtxId) (s : State) : Out := aluRow x 1 (fun a b => a - b) s

/-- AND (R193). -/
def execAnd (x : CtxId) (s : State) : Out := aluRow x 2 (fun a b => a &&& b) s

/-- OR (R193). -/
def execOr (x : CtxId) (s : State) : Out := aluRow x 3 (fun a b => a ||| b) s

/-- XOR (R193). -/
def execXor (x : CtxId) (s : State) : Out := aluRow x 4 (fun a b => a ^^^ b) s

/-- SHL (R193). -/
def execShl (x : CtxId) (s : State) : Out := aluRow x 5 (fun a b => a <<< shAmt b) s

/-- SHR (R193). -/
def execShr (x : CtxId) (s : State) : Out := aluRow x 6 (fun a b => a >>> shAmt b) s

/-- SAR (R193). -/
def execSar (x : CtxId) (s : State) : Out := aluRow x 7 (fun a b => a.sshiftRight (shAmt b)) s

/-- MUL (R193). -/
def execMul (x : CtxId) (s : State) : Out := aluRow x 8 (fun a b => a * b) s

/-- DIVU (R193). -/
def execDivu (x : CtxId) (s : State) : Out := aluRow x 9 (fun a b => divuOf a b) s

/-- REMU (R193). -/
def execRemu (x : CtxId) (s : State) : Out := aluRow x 10 (fun a b => remuOf a b) s

/-! ## Fields and immediates (R194) -/

/-- A mask of `width` ones. -/
def ones (width : Nat) : W64 := w64 (2 ^ width - 1)

/-- EXT (R194). -/
def execExt (x : CtxId) (s : State) : Out :=
  runNirm s x (isOp .ext) (fun v w =>
    setRd s v w ((v.g (wRa w) >>> (wFunc w % 64)) &&& ones (wFunc w / 64 + 1)))

/-- DEP (R194). -/
def execDep (x : CtxId) (s : State) : Out :=
  runNirm s x (isOp .dep) (fun v w =>
    let lsb := wFunc w % 64
    let mask := ones (wFunc w / 64 + 1) <<< lsb
    setRd s v w ((v.g (wRd w) &&& ~~~mask) ||| ((v.g (wRa w) <<< lsb) &&& mask)))

/-- An instruction of format B that computes from g[ra] and imm16. -/
def immRow (x : CtxId) (o : Op) (op : W64 → Nat → W64) (s : State) : Out :=
  runNirm s x (isOp o) (fun v w => setRd s v w (op (v.g (wRa w)) (wImm16 w)))

/-- ADDI (R194). -/
def execAddi (x : CtxId) (s : State) : Out := immRow x .addi (fun a i => a + sext 16 i) s

/-- ANDI (R194). -/
def execAndi (x : CtxId) (s : State) : Out := immRow x .andi (fun a i => a &&& w64 i) s

/-- ORI (R194). -/
def execOri (x : CtxId) (s : State) : Out := immRow x .ori (fun a i => a ||| w64 i) s

/-- XORI (R194). -/
def execXori (x : CtxId) (s : State) : Out := immRow x .xori (fun a i => a ^^^ w64 i) s

/-- SHLI (R194). -/
def execShli (x : CtxId) (s : State) : Out := immRow x .shli (fun a i => a <<< i) s

/-- SHRI (R194). -/
def execShri (x : CtxId) (s : State) : Out := immRow x .shri (fun a i => a >>> i) s

/-- SARI (R194). -/
def execSari (x : CtxId) (s : State) : Out := immRow x .sari (fun a i => a.sshiftRight i) s

/-- LI (R194). -/
def execLi (x : CtxId) (s : State) : Out := runNirm s x (isOp .li) (fun v w => setRd s v w (sext 20 (wImm20 w)))

/-- LSH (R194). -/
def execLsh (x : CtxId) (s : State) : Out :=
  runNirm s x (isOp .lsh) (fun v w => setRd s v w ((v.g (wRd w) <<< 20) ||| w64 (wImm20 w)))

/-! ## Compare and branch (R195) -/

/-- The six conditions, in their order. -/
def condOf (c : Nat) (a b : W64) : Bool :=
  match c with
  | 0 => decide (a = b)
  | 1 => decide (a ≠ b)
  | 2 => a.ult b
  | 3 => !a.ult b
  | 4 => a.slt b
  | _ => !a.slt b

/-- SET with any of its conditions. -/
def isSet : Op → Inv → Bool := fun o _ => match o with
  | .set _ => true
  | _ => false

/-- SET (R195). -/
def execSet (x : CtxId) (s : State) : Out :=
  runNirm s x isSet (fun v w =>
    setRd s v w (if condOf (wFunc w) (v.g (wRa w)) (v.g (wRb w)) then 1 else 0))

/-- The index that a signed offset of imm16 names. -/
def target16 (v : Inv) (w : W32) : Int := v.pc + (BitVec.ofNat 16 (wImm16 w)).toInt

def target20 (v : Inv) (w : W32) : Int := v.pc + (BitVec.ofNat 20 (wImm20 w)).toInt

/-- A conditional branch. -/
def branchIf (s : State) (v : Inv) (w : W32) (c : Bool) : NRes := if c then .jump v (target16 v w) else .next s v

/-- BEQ (R195). -/
def execBeq (x : CtxId) (s : State) : Out :=
  runNirm s x (isOp (.branch 0)) (fun v w => branchIf s v w (condOf 0 (v.g (wRd w)) (v.g (wRa w))))

/-- BNE (R195). -/
def execBne (x : CtxId) (s : State) : Out :=
  runNirm s x (isOp (.branch 1)) (fun v w => branchIf s v w (condOf 1 (v.g (wRd w)) (v.g (wRa w))))

/-- BLTU (R195). -/
def execBltu (x : CtxId) (s : State) : Out :=
  runNirm s x (isOp (.branch 2)) (fun v w => branchIf s v w (condOf 2 (v.g (wRd w)) (v.g (wRa w))))

/-- BGEU (R195). -/
def execBgeu (x : CtxId) (s : State) : Out :=
  runNirm s x (isOp (.branch 3)) (fun v w => branchIf s v w (condOf 3 (v.g (wRd w)) (v.g (wRa w))))

/-- BLT (R195). -/
def execBlt (x : CtxId) (s : State) : Out :=
  runNirm s x (isOp (.branch 4)) (fun v w => branchIf s v w (condOf 4 (v.g (wRd w)) (v.g (wRa w))))

/-- BGE (R195). -/
def execBge (x : CtxId) (s : State) : Out :=
  runNirm s x (isOp (.branch 5)) (fun v w => branchIf s v w (condOf 5 (v.g (wRd w)) (v.g (wRa w))))

/-- BZ (R195). -/
def execBz (x : CtxId) (s : State) : Out :=
  runNirm s x (isOp .bz) (fun v w => branchIf s v w (decide (v.g (wRd w) = 0)))

/-- BNZ (R195). -/
def execBnz (x : CtxId) (s : State) : Out :=
  runNirm s x (isOp .bnz) (fun v w => branchIf s v w (decide (v.g (wRd w) ≠ 0)))

/-- JMP (R195). -/
def execJmp (x : CtxId) (s : State) : Out := runNirm s x (isOp .jmp) (fun v w => .jump v (target20 v w))

/-- JR (R195). -/
def execJr (x : CtxId) (s : State) : Out := runNirm s x (isOp .jr) (fun v w => .jump v (v.g (wRa w)).toNat)

/-- CALL (R195): the link is written only when the transfer is made. -/
def execCall (x : CtxId) (s : State) : Out :=
  runNirm s x (isOp .call) (fun v w => .jump (v.setG (wRd w) (w64 (v.pc + 1))) (target20 v w))

/-! ## Scratch, window and response area (R196) -/

/-- The wait of a scratch access (R164). -/
def scrWait (a n : Nat) : Wait := if 4096 < a + n then .spill else .none

/-- Range and alignment of a scratch access (R167). -/
def scrOk (a n : Nat) : Bool := decide (a + n ≤ 65536) && decide (a % n = 0)

/-- A scratch load of `n` octets. -/
def ldRow (x : CtxId) (k n : Nat) (s : State) : Out :=
  runNirm s x (isOp (.ld k)) (fun v w =>
    let a := v.addr w
    need (scrOk a n) fScratch (nextWait s (v.setG (wRd w) (w64 (leNat (v.scr a n)))) (scrWait a n)))

/-- A scratch store of `n` octets. -/
def stRow (x : CtxId) (k n : Nat) (s : State) : Out :=
  runNirm s x (isOp (.st k)) (fun v w =>
    let a := v.addr w
    need (scrOk a n) fScratch (nextWait s (v.setScr a (leOctets n (v.g (wRd w)).toNat)) (scrWait a n)))

/-- A window load of `n` octets (R168). -/
def wlRow (x : CtxId) (k n : Nat) (s : State) : Out :=
  runNirm s x (isOp (.wl k)) (fun v w =>
    let a := v.addr w
    need (decide (a + n ≤ v.winEnd)) fWindow
      (nextWait s (v.setG (wRd w) (w64 (beNat (v.win a n)))) (if 512 < a + n then .window else .none)))

/-- A response store of `n` octets (R169). -/
def rsRow (x : CtxId) (k n : Nat) (s : State) : Out :=
  runNirm s x (isOp (.rs k)) (fun v w =>
    let a := v.addr w
    need (decide (a + n ≤ 256)) fRspLimit (.next s { v with rsp := memWrite v.rsp a (beOctets n (v.g (wRd w)).toNat) }))

/-- LD8 (R196). -/
def execLd8 (x : CtxId) (s : State) : Out := ldRow x 0 1 s

/-- LD16 (R196). -/
def execLd16 (x : CtxId) (s : State) : Out := ldRow x 1 2 s

/-- LD32 (R196). -/
def execLd32 (x : CtxId) (s : State) : Out := ldRow x 2 4 s

/-- LD64 (R196). -/
def execLd64 (x : CtxId) (s : State) : Out := ldRow x 3 8 s

/-- ST8 (R196). -/
def execSt8 (x : CtxId) (s : State) : Out := stRow x 0 1 s

/-- ST16 (R196). -/
def execSt16 (x : CtxId) (s : State) : Out := stRow x 1 2 s

/-- ST32 (R196). -/
def execSt32 (x : CtxId) (s : State) : Out := stRow x 2 4 s

/-- ST64 (R196). -/
def execSt64 (x : CtxId) (s : State) : Out := stRow x 3 8 s

/-- WL8 (R196). -/
def execWl8 (x : CtxId) (s : State) : Out := wlRow x 0 1 s

/-- WL16 (R196). -/
def execWl16 (x : CtxId) (s : State) : Out := wlRow x 1 2 s

/-- WL32 (R196). -/
def execWl32 (x : CtxId) (s : State) : Out := wlRow x 2 4 s

/-- WL64 (R196). -/
def execWl64 (x : CtxId) (s : State) : Out := wlRow x 3 8 s

/-- RS8 (R196). -/
def execRs8 (x : CtxId) (s : State) : Out := rsRow x 0 1 s

/-- RS16 (R196). -/
def execRs16 (x : CtxId) (s : State) : Out := rsRow x 1 2 s

/-- RS32 (R196). -/
def execRs32 (x : CtxId) (s : State) : Out := rsRow x 2 4 s

/-- RS64 (R196). -/
def execRs64 (x : CtxId) (s : State) : Out := rsRow x 3 8 s

/-! ## Strings (R197 to R200) -/

/-- The two strings of KEYCMP, or the fault. -/
def keycmpRow (x : CtxId) (f : Nat) (res : Octets → Octets → W64) (s : State) : Out :=
  runNirm s x (isOp (.keycmp f)) (fun v w =>
    match strDesc (v.g (wRa w)), strDesc (v.g (wRb w)) with
    | some a, some b =>
      need (decide (a.len ≤ 512) && decide (b.len ≤ 512)) fOperand
        (orFault (v.strReach a) (orFault (v.strReach b)
          (nextWait s (v.setG (wRd w) (res (v.str a) (v.str b))) (orWait (strWait a) (strWait b)))))
    | _, _ => .fault fOperand)

/-- KEYCMP with func ORDER (R197). -/
def execKeycmpOrder (x : CtxId) (s : State) : Out :=
  keycmpRow x 0 (fun a b => if octetsCmp a b < 0 then 1 else if octetsCmp b a < 0 then 2 else 0) s

/-- KEYCMP with func PREFIX (R197). -/
def execKeycmpPrefix (x : CtxId) (s : State) : Out := keycmpRow x 1 (fun a b => if startsWith a b then 1 else 0) s

/-- The octets `o` stored at the place that a descriptor names (R198). -/
def Inv.putStr (v : Inv) (d : StrDesc) (o : Octets) : Inv :=
  match d.space with
  | 1 => v.setScr d.off o
  | _ => { v with rsp := memWrite v.rsp d.off o }

/-- KEYCPY (R198). -/
def execKeycpy (x : CtxId) (s : State) : Out :=
  runNirm s x (isOp .keycpy) (fun v w =>
    match strDesc (v.g (wRa w)), strDesc (v.g (wRb w)) with
    | some a, some b =>
      need (decide (a.len ≤ 512) && decide (a.len ≤ b.len) && decide (b.space ≠ 0)) fOperand
        (orFault (v.strReach a) (orFault (v.strReach b)
          (nextWait s ((v.putStr b (v.str a)).setG (wRd w) (w64 a.len)) (orWait (strWait a) (strWait b)))))
    | _, _ => .fault fOperand)

/-- CRC (R199). -/
def execCrc (x : CtxId) (s : State) : Out :=
  runNirm s x (isOp .crc) (fun v w =>
    match strDesc (v.g (wRa w)) with
    | some a =>
      need (decide (a.len ≤ 4096)) fOperand (orFault (v.strReach a)
        (nextWait s (v.setG (wRd w) ((crc32cFrom ((v.g (wRd w)).setWidth 32) (v.str a)).setWidth 64)) (strWait a)))
    | none => .fault fOperand)

/-- HKEY (R200). -/
def execHkey (x : CtxId) (s : State) : Out :=
  runNirm s x (isOp .hkey) (fun v w =>
    let ns := (v.g (wRb w)).toNat
    match strDesc (v.g (wRa w)) with
    | some a =>
      need (decide (a.len ≤ 512) && decide (ns < 4096)) fOperand (orFault (v.strReach a)
        (nextWait s (v.setG (wRd w) (s.hkey ns (v.str a))) (strWait a)))
    | none => .fault fOperand)

end Sys2Proof.Machine
end

