-- ==== Sys2Proof/Machine/NirmStore.lean ====
section
/-! DEFINITION. Directory, selection and media instructions (R201 to R214): what each checks as it issues. Their answers come
with DIRECTORY_REPLY, SEL_SEARCH_RESULT, ALLOC_RESERVE and MEDIA_RESULT (Machine/NirmWake.lean). -/

namespace Sys2Proof.Machine

/-- The state as invocation v sees it (R172). -/
def State.viewOf (s : State) (v : Inv) : State :=
  match s.cmd? v.commit with
  | some c => s.view (c.actor v.stagedBase v.stagedVal) v.staged
  | none => s

/-- The home die of an invocation. -/
def homeDie (x : CtxId) : Nat :=
  match x with
  | .eng e _ => e / 128
  | .mgmt d => d - 1

/-- The home die's tables as the invocation sees them. -/
def State.dieOf (s : State) (x : CtxId) (v : Inv) : Die := (s.viewOf v).die (homeDie x)

/-- The scratch octet of off12, and the check of the block (R186). -/
def wBlock (w : W32) : Nat := wFunc w * 16

def inScratch (w : W32) (n : Nat) (go : NRes) : NRes := need (decide (wBlock w + n ≤ 65536)) fScratch go

/-- Word k of the block of an instruction. -/
def Inv.blockWord (v : Inv) (w : W32) (k : Nat) : Nat := leNat (v.scr (wBlock w + 8 * k) 8)

/-! ## Directory (R202 to R207) -/

/-- MODE of a query descriptor (Table 6-8). -/
def queryMode (d : W64) : Nat := bitsOf d.toNat 32 4

/-- The row is DLOOK in a mode; a reserved MODE faults in any of the three rows. -/
def isDlook (mode : Nat) : Op → Inv → Bool := fun o v =>
  decide (o = .dlook) && (match v.word with
    | some w => decide (queryMode (v.g (wRb w)) = mode) || decide (2 < queryMode (v.g (wRb w)))
    | none => false)

/-- The checks of a query descriptor. -/
def queryOk (d : W64) : Bool :=
  let n := d.toNat
  decide (bitsOf n 32 4 ≤ 2) && decide (bitsOf n 12 4 = 0) && decide (bitsOf n 36 28 = 0) &&
  (decide (bitsOf n 32 4 = 0) || decide (bitsOf n 16 16 = 0))

/-- A reserved MODE faults before anything that depends on the mode is checked. -/
def modeKnown (d : W64) (go : NRes) : NRes := need (decide (queryMode d ≤ 2)) fOperand go

def queryNs (d : W64) : Nat := bitsOf d.toNat 0 12
def queryK (d : W64) : Nat := bitsOf d.toNat 16 16

/-- DLOOK in mode HASH (R202). -/
def execDlookHash (x : CtxId) (s : State) : Out :=
  runNirm s x (isDlook 0) (fun v w =>
    let q := v.g (wRb w)
    unpriv x (modeKnown q (inScratch w 64 (need (queryOk q) fOperand
      (.pause s v (.lookup (wRd w) (v.g (wRa w)) (queryNs q) (queryK q) (wBlock w)))))))

/-- DLOOK in mode SUCC (R202, R203); its string may wait at the window too, within the same wait. -/
def execDlookSucc (x : CtxId) (s : State) : Out :=
  runNirm s x (isDlook 1) (fun v w =>
    let q := v.g (wRb w)
    unpriv x (modeKnown q (inScratch w 336 (need (decide (v.cls = clsSpan) && decide (queryNs q = v.nsid)) fClass
      (need (queryOk q) fOperand (match strDesc (v.g (wRa w)) with
        | none => .fault fOperand
        | some a => orFault (v.strReach a)
            (.pause s v (.succ (wRd w) (queryNs q) (v.str a) (wBlock w)))))))))

/-- DLOOK in mode PEND (R202). -/
def execDlookPend (x : CtxId) (s : State) : Out :=
  runNirm s x (isDlook 2) (fun v w =>
    let q := v.g (wRb w)
    unpriv x (modeKnown q (inScratch w 336 (need (queryOk q) fOperand
      (.pause s v (.putRec (wRd w) (v.g (wRa w)).toNat (wBlock w)))))))

/-- SRC, PEND and NEWENT of a write descriptor (Table 6-10). -/
def wdSrc (d : W64) : Nat := bitsOf d.toNat 0 3
def wdPend (d : W64) : Bool := d.getLsbD 3
def wdNewent (d : W64) : Bool := d.getLsbD 4
def wdOk (d : W64) : Bool := decide (wdSrc d ≤ 4) && decide (d.toNat < 32)

/-- LENGTH and NSID of word 1, KEYLEN of word 5 (Table 2-4). -/
def blkLength (w1 : Nat) : Nat := w1 % 2 ^ 48
def blkNsid (w1 : Nat) : Nat := w1 / 2 ^ 48 % 4096
def blkKeyLen (w5 : Nat) : Nat := w5 / 2 ^ 32 % 256

/-- The checks that SRC DATA and SRC EMPTY share, and the limit on LENGTH (R205, R206). -/
def srcOk (v : Inv) (src len keyLen : Nat) : Bool :=
  (decide (src ≠ 1) || (v.dsag && decide (len = v.msgLen - 40 - keyLen))) &&
  (decide (src ≠ 3) || decide (len = 0)) && decide (len ≤ 2 ^ 40)

/-- DINS (R205, R298): the ledger decides on room, then the directory answers. -/
def execDins (x : CtxId) (s : State) : Out :=
  runNirm s x (isOp .dins) (fun v w =>
    let d := v.g (wRb w)
    let w1 := v.blockWord w 1
    let src := wdSrc d
    unpriv x (inScratch w 64
      (need (decide (v.cls = clsOwrite) && decide (w64 (v.blockWord w 0) = v.g 0) && decide (blkNsid w1 = v.nsid)) fClass
      (need (wdOk d && decide (blkKeyLen (v.blockWord w 5) = (v.g 3).toNat % 256) &&
          (wdPend d || (decide (src ≠ 0) && decide (src ≠ 4))) && srcOk v src (blkLength w1) (blkKeyLen (v.blockWord w 5)) &&
          (!wdPend d || decide (src = 0)) && (!wdNewent d || wdPend d)) fOperand
        (.pause s v (.ins (wRd w) d (v.scr (wBlock w) 64) none))))))

/-- The entry that a write names is the command's own (Table 6-5). -/
def ownEntry (v : Inv) (e : Option DirEntry) : Bool :=
  match e with
  | some e => decide (e.keyHash = v.g 0) && decide (e.nsid = v.nsid)
  | none => true

/-- A handle in a register: bits above 32 name no object. -/
def regHandle (r : W64) : W32 := if r.toNat < 2 ^ 32 then w32 r.toNat else noHandle

/-- DUPD (R206). -/
def execDupd (x : CtxId) (s : State) : Out :=
  runNirm s x (isOp .dupd) (fun v w =>
    let d := v.g (wRb w)
    let h := regHandle (v.g (wRa w))
    let len := blkLength (v.blockWord w 1)
    let e := (s.dieOf x v).byHandle h
    let keepOk := match e with
      | some e => decide (wdSrc d ≠ 0) || decide (len = e.length)
      | none => true
    unpriv x (inScratch w 64 (need (decide (v.cls = clsOwrite) && ownEntry v e) fClass
      (need (wdOk d && keepOk && !wdPend d && !wdNewent d && srcOk v (wdSrc d) len (msgKeyLen v.msg)) fOperand
        (.pause s v (.upd (wRd w) h d (v.scr (wBlock w) 64)))))))

/-- DDEL (R207). -/
def execDdel (x : CtxId) (s : State) : Out :=
  runNirm s x (isOp .ddel) (fun v w =>
    let h := regHandle (v.g (wRa w))
    unpriv x (need (decide (v.cls = clsOwrite) && ownEntry v ((s.dieOf x v).byHandle h)) fClass
      (.pause s v (.del (wRd w) h))))

/-! ## Selection (R208, R209, R247) -/

/-- The search-log slot of a pair. -/
def Inv.logSlot (v : Inv) (stem caps : W64) : Option Nat :=
  (v.log.find? (fun e => decide (e.2.stem = stem) && decide (e.2.caps = caps))).map (fun e => e.1)

/-- An unused search-log slot's content. -/
def logEmpty : LogSlot := { stem := 0, caps := 0, frontPrio := 0, frontIndex := 0, any := false, multi := false, used := 0 }

/-- The slot that a search takes: its pair's, the lowest free one, or the one used least recently (R247). -/
def Inv.takeLog (v : Inv) (stem caps : W64) : Nat :=
  match v.logSlot stem caps with
  | some k => k
  | none =>
    match leastBelow 8 (fun k => !v.log.any (fun e => e.1 == k)) with
    | some k => k
    | none => (sortBy (fun e => e.2.used) v.log).head?.elim 0 (fun e => e.1)

/-- SEL (R208). -/
def execSel (x : CtxId) (s : State) : Out :=
  runNirm s x (isOp .sel) (fun v w =>
    unpriv x (inScratch w 16 (.pause s v (.sel (wRd w) (v.g (wRa w)) (v.g (wRb w)) (wBlock w)))))

/-- A cursor is one that R247 accepts. -/
def cursorOk (q : Sel) (v : Inv) (stem caps cursor : W64) : Bool :=
  if cursor = 0 then (v.logSlot stem caps).isSome
  else
    let n := cursor.toNat
    let prio := bitsOf n 0 16
    let index := bitsOf n 16 22
    let k := bitsOf n 38 3
    decide (bitsOf n 41 22 = 0) && decide (bitsOf n 63 1 = 1) &&
    (match v.log.find? (fun e => e.1 == k) with
      | none => false
      | some e =>
        decide (e.2.stem = stem) && decide (e.2.caps = caps) && e.2.any &&
        !stepsAfter prio index e.2.frontPrio e.2.frontIndex &&
        rowMatches stem caps (q.row index) && decide (rowPrio (q.row index) = prio))

/-- SELNEXT (R208, R245 to R247). -/
def execSelnext (x : CtxId) (s : State) : Out :=
  runNirm s x (isOp .selnext) (fun v w =>
    let stem := v.g (wRa w)
    let caps := v.g (wRb w)
    let cursor := w64 (v.blockWord w 1)
    let multi := (v.blockWord w 0).testBit 48
    unpriv x (inScratch w 16 (need (cursorOk (s.viewOf v).sel v stem caps cursor) fOperand
      (.pause s v (.selNext (wRd w) stem caps cursor multi (wBlock w))))))

/-- A staged change of a stem empties the log slots of that stem (R247). -/
def Inv.clearLog (v : Inv) (stem : W64) : Inv := { v with log := v.log.filter (fun e => decide (e.2.stem ≠ stem)) }

/-- SADD (R209, R250): a handle of no live object answers 3 and a priority change 2; a new entry waits for the allocator. -/
def execSadd (x : CtxId) (s : State) : Out :=
  runNirm s x (isOp .sadd) (fun v w =>
    let w2 := v.blockWord w 2
    let rm := w64 (v.blockWord w 0)
    let stem := v.g 1
    let prio := bitsOf w2 32 16
    let h := w32 (bitsOf w2 0 32)
    unpriv x (inScratch w 32
      (need (decide (v.cls = clsSwrite) && decide (w64 (v.blockWord w 1) = stem)) fClass
        (match (s.dieOf x v).liveBy h with
          | none => nextWait s (v.setG (wRd w) 3) (scrWait (wBlock w) 32)
          | some _ => match (s.viewOf v).sel.same rm stem h with
            | some i =>
              let row : List Staged := [.row i rm stem prio h false]
              let v' := { v.clearLog stem with staged := v.staged ++ row }
              nextWait s (v'.setG (wRd w) 2) (scrWait (wBlock w) 32)
            | none => .pause s v (.sadd (wRd w) rm stem prio h)))))

/-- SDEL (R209): its rows are known to the invocation, so it stages at once and the answer follows with no wait on the
allocator (R250). -/
def execSdel (x : CtxId) (s : State) : Out :=
  runNirm s x (isOp .sdel) (fun v w =>
    let all := v.g (wRb w)
    let stem := v.g 1
    let h := w32 (bitsOf (v.blockWord w 2) 0 32)
    unpriv x (inScratch w 32
      (need (decide (v.cls = clsSwrite) && decide (w64 (v.blockWord w 1) = stem)) fClass
      (need (decide (all.toNat < 2)) fOperand
        (let q := (s.viewOf v).sel
         let rows := if all = 1 then q.ofHandle stem h else (q.same (w64 (v.blockWord w 0)) stem h).toList
         let v' := if rows = [] then v else { v.clearLog stem with staged := v.staged ++ rows.map Staged.rowDel }
         nextWait s (v'.setG (wRd w) (w64 rows.length)) (scrWait (wBlock w) 32))))))

/-! ## Media (R210 to R214) -/

/-- CHUNK, COFF, CLEN, KIND of a media descriptor (Table 6-13). -/
def mdChunk (d : W64) : Nat := bitsOf d.toNat 0 24
def mdCoff (d : W64) : Nat := bitsOf d.toNat 24 16
def mdClen (d : W64) : Nat := bitsOf d.toNat 40 17
def mdKind (d : W64) : Nat := bitsOf d.toNat 57 2
def mdZero (d : W64) : Bool := decide (bitsOf d.toNat 59 5 = 0)

/-- The row is MREAD or MWRITE of a KIND; a reserved KIND faults in any row of the instruction. -/
def isMedia (o : Op) (kind top : Nat) : Op → Inv → Bool := fun p v =>
  decide (p = o) && (match v.word with
    | some w => decide (mdKind (v.g (wRb w)) = kind) || decide (top < mdKind (v.g (wRb w)))
    | none => false)

/-- The slot takes an operation when it is idle (R210). -/
def issue (s : State) (v : Inv) (w : W32) (op : MediaOp) : NRes := .next s (v.setSlot (wRd w) (.busy op v.staged.length))

/-- A read issues: the flash dies that hold its chunks are wanted at once (R278). -/
def issueRead (x : CtxId) (s : State) (v : Inv) (w : W32) (op : MediaOp) : NRes :=
  issue (s.modDie (homeDie x) (fun d => d.wakeFlash (d.opReads op))) v w op

def slotIdle (v : Inv) (w : W32) (go : NRes) : NRes := need (decide (v.slot (wRd w) = .idle)) fSlot go

/-- A reserved KIND faults after the slot is checked, before anything that depends on the kind (R210). -/
def kindKnown (top : Nat) (v : Inv) (w : W32) (go : NRes) : NRes :=
  if top < mdKind (v.g (wRb w)) then slotIdle v w (.fault fOperand) else go

/-- The descriptor is one of a defined KIND with its reserved bits 0, and reads nothing (KEYREC, FILL, PART). -/
def mdPlain (d : W64) (kind : Nat) : Bool :=
  decide (mdKind d = kind) && mdZero d && decide (mdCoff d = 0) && decide (mdClen d = 0)

/-- MREAD of KIND VALUE (R211). -/
def execMreadValue (x : CtxId) (s : State) : Out :=
  runNirm s x (isMedia .mread 0 2) (fun v w =>
    let d := v.g (wRb w)
    unpriv x (kindKnown 2 v w (inScratch w (mdClen d) (slotIdle v w
      (need (mdZero d && decide (mdKind d = 0) && decide (mdClen d ≠ 0) && decide (mdCoff d + mdClen d ≤ 65536)) fOperand
        (issueRead x s v w (.value (regHandle (v.g (wRa w))) (mdChunk d) (mdCoff d) (mdClen d) (wBlock w))))))))

/-- MREAD of KIND KEYREC (R211). -/
def execMreadKeyrec (x : CtxId) (s : State) : Out :=
  runNirm s x (isMedia .mread 1 2) (fun v w =>
    let d := v.g (wRb w)
    unpriv x (kindKnown 2 v w (inScratch w 272 (slotIdle v w
      (need (mdPlain d 1 && decide (mdChunk d = 0)) fOperand
        (issueRead x s v w (.keyrec (regHandle (v.g (wRa w))) (wBlock w))))))))

/-- MREAD of KIND FILL (R211). -/
def execMreadFill (x : CtxId) (s : State) : Out :=
  runNirm s x (isMedia .mread 2 2) (fun v w =>
    let d := v.g (wRb w)
    unpriv x (kindKnown 2 v w (slotIdle v w (need (mdPlain d 2 && decide (mdChunk d = 0) && decide (wFunc w = 0)) fOperand
      (issueRead x s v w (.fill (regHandle (v.g (wRa w)))))))))

/-- The base that g[ra] names: 0xFFFF_FFFF for none (R212). Bits 63 to 32 are not looked at (DESIGN CHOICE, log 110). -/
def regBase (r : W64) : W32 := w32 (r.toNat % 2 ^ 32)

/-- MWRITE of KIND STAGED (R212): writes take effect in the order of their issue (R210). -/
def execMwriteStaged (x : CtxId) (s : State) : Out :=
  runNirm s x (isMedia .mwrite 0 1) (fun v w =>
    let d := v.g (wRb w)
    let base := regBase (v.g (wRa w))
    let off := mdChunk d * 65536 + mdCoff d
    let sameBase := match v.stagedBase with
      | some b => decide (b = base)
      | none => true
    unpriv x (kindKnown 1 v w (inScratch w (mdClen d) (need (decide (v.cls = clsOwrite)) fClass (slotIdle v w
      (need (mdZero d && decide (mdKind d = 0) && decide (mdClen d ≠ 0) && decide (mdCoff d + mdClen d ≤ 65536) && sameBase &&
          decide (off + mdClen d ≤ 2 ^ 40)) fOperand
        (let data := v.scr (wBlock w) (mdClen d)
         if base ≠ noHandle ∧ ((s.dieOf x v).liveBy base).isNone then
           issue s { v with stagedBase := some base } w (.staged base off data 3)
         else issue s { v with stagedBase := some base, stagedVal := v.stagedVal ++ [(off, data)] } w (.staged base off data 0))))))))

/-- The pending put that a command may write is its own (Table 6-5). -/
def ownPut (v : Inv) (p : Option Pending) : Bool :=
  match p with
  | some p => decide (p.keyHash = v.g 0) && decide (p.nsid = v.nsid)
  | none => true

/-- MWRITE of KIND PART (R212): its change is staged as it issues (R210). -/
def execMwritePart (x : CtxId) (s : State) : Out :=
  runNirm s x (isMedia .mwrite 1 1) (fun v w =>
    let d := v.g (wRb w)
    let id := v.g (wRa w)
    let put := (s.dieOf x v).put? id.toNat
    let chunk := mdChunk d
    unpriv x (kindKnown 1 v w (need (decide (v.cls = clsOwrite) && ownPut v put) fClass (slotIdle v w
      (need (mdPlain d 1 && decide (wFunc w = 0) && v.dsag) fOperand
        (match put with
          | none => issue s v w (.part id chunk 3)
          | some p =>
            if partRange p (chunk * 65536) (v.msgLen - 40 - msgKeyLen v.msg) then issue s v w (.part id chunk 4)
            else issue s { v with staged := v.staged ++ [.part p.putid chunk] } w (.part id chunk 0)))))))

/-- MDISC (R213): its change is staged as it issues (R210). -/
def execMdisc (x : CtxId) (s : State) : Out :=
  runNirm s x (isOp .mdisc) (fun v w =>
    let id := v.g (wRa w)
    let put := (s.dieOf x v).put? id.toNat
    unpriv x (need (decide (v.cls = clsOwrite) && ownPut v put) fClass (slotIdle v w
      (match put with
        | none => issue s v w (.mdisc id 3)
        | some p => issue s { v with staged := v.staged ++ [.endPut p.putid] } w (.mdisc id 0)))))

/-- MSDISC (R214, R323): its targets are marked as it issues. -/
def execMsdisc (x : CtxId) (s : State) : Out :=
  runNirm s x (isOp .msdisc) (fun v w =>
    let h := v.g (wRa w)
    unpriv x (need (decide (v.cls = clsOwrite) && decide (h = v.g 0)) fClass (slotIdle v w
      (match s.cmd? v.commit with
        | none => issue s v w (.msdisc h)
        | some c =>
          let t := s.modDie c.die (fun d => d.markPurge s.geo (c.region % 4) c.commit h)
          issue t { v with erased := true } w (.msdisc h))))
    )

end Sys2Proof.Machine
end

