-- ==== Sys2Proof/Machine/NirmSync.lean ====
section
/-! DEFINITION. Output, synchronisation, control, events, special registers and register access (R215 to R224). -/

namespace Sys2Proof.Machine

/-! ## Output (R169, R215, R216) -/

/-- The octets appended by an EMIT. -/
def Inv.emit (v : Inv) (a n : Nat) : Inv :=
  { v with out := if n = 0 then v.out else v.out ++ [.octets (memRead v.rsp a n)], outLen := v.outLen + n }

/-- Largest number of EMIT octets of an invocation (R169). -/
def emitLimit : Nat := 1179648

/-- The EMIT passes 4,096 octets and takes a large-response unit; management engines have none (R169). -/
def needsUnit (x : CtxId) (v : Inv) (n : Nat) : Bool :=
  decide (4096 < v.outLen + n) && !v.large && (match x with
    | .eng _ _ => true
    | .mgmt _ => false)

/-- The queue of contexts that wait for a unit of store die d. -/
def State.largeQueue (s : State) (d : Nat) : List Nat := tabGet (fun _ => []) s.eng.largeQ d

def State.setLargeQueue (s : State) (d : Nat) (q : List Nat) : State :=
  { s with eng := { s.eng with largeQ := tabSet (fun _ => []) s.eng.largeQ d q } }

/-- The number of a request-engine context in the queue. -/
def ctxNo (x : CtxId) : Nat :=
  match x with
  | .eng e c => e * 8 + c
  | .mgmt d => 4096 + d

/-- EMIT (R215). The range check includes an empty range: g[ra] above 256 faults with 0 octets too (DESIGN CHOICE, log 115). -/
def execEmit (x : CtxId) (s : State) : Out :=
  runNirm s x (isOp .emit) (fun v w =>
    let a := (v.g (wRa w)).toNat
    let n := (v.g (wRb w)).toNat
    let d := homeDie x
    need (decide (a + n ≤ 256) && decide (v.outLen + n ≤ emitLimit)) fRspLimit
      (if needsUnit x v n then
        if s.largeQueue d = [] ∧ s.unitsUsed d < 16 then .next s { v.emit a n with large := true }
        else .pause (s.setLargeQueue d (s.largeQueue d ++ [ctxNo x])) v (.large a n)
      else .next s (v.emit a n)))

/-- EMITD (R216). -/
def execEmitd (x : CtxId) (s : State) : Out :=
  runNirm s x (isOp .emitd) (fun v w =>
    let h := regHandle (v.g (wRa w))
    let off := (v.g (wRb w)).toNat
    let n := (v.g (wRd w)).toNat
    unpriv x (match (s.dieOf x v).liveBy h with
      | none => .fault fOperand
      | some e =>
        need (decide (off + n ≤ e.length)) fOperand
          (if n = 0 then .next s v
           else need (decide (v.descs < 256)) fRspLimit
             (.next s { v with out := v.out ++ [.range (homeDie x) h off n], descs := v.descs + 1 }))))

/-! ## FENCE, LOCK, UNLK, WAIT (R217 to R219) -/

/-- A FENCE instruction: class SPAN on a request engine. -/
def fenceRow (x : CtxId) (f : Nat) (s : State) : Out :=
  runNirm s x (isOp (.fence f)) (fun v _ =>
    unpriv x (need (decide (v.cls = clsSpan)) fClass (.pause s v (.fence f))))

/-- FENCE with func CONN (R217). -/
def execFenceConn (x : CtxId) (s : State) : Out := fenceRow x 0 s

/-- FENCE with func PKG (R217). -/
def execFencePkg (x : CtxId) (s : State) : Out := fenceRow x 1 s

/-- FENCE with func FLUSHNS (R217). -/
def execFenceFlushns (x : CtxId) (s : State) : Out := fenceRow x 2 s

/-- FENCE with func FLUSHALL (R217). -/
def execFenceFlushall (x : CtxId) (s : State) : Out := fenceRow x 3 s

/-- The lock that a register names; the FABADDR field is ignored (R218). -/
def regLock (r : W64) : Option Nat :=
  let p := r.toNat % 2 ^ 20
  if r.toNat < 2 ^ 32 ∧ Wf.lock p then some p else none

/-- LOCK (R218, R441). -/
def execLock (x : CtxId) (s : State) : Out :=
  runNirm s x (isOp .lock) (fun v w =>
    let u := lockUser x
    match regLock (v.g (wRa w)) with
    | none => .fault fOperand
    | some p =>
      need ((decide (Wf.placeDie p = 0) || decide (Wf.placeDie p = u.die)) && decide ((s.locksOf u).length < 4) &&
          !(s.locksOf u).contains p) fOperand
        (.pause (s.lockRequest p u) v (.lock (wRd w) p)))

/-- UNLK (R218). -/
def execUnlk (x : CtxId) (s : State) : Out :=
  runNirm s x (isOp .unlk) (fun v w =>
    match regLock (v.g (wRa w)) with
    | none => .fault fOperand
    | some p => need ((s.locksOf (lockUser x)).contains p) fOperand (.next (s.lockRelease p) v))

/-- WAIT on a media slot. -/
def isWaitSlot : Op → Inv → Bool := fun o _ => match o with
  | .wait t => decide (t < 8)
  | _ => false

/-- WAIT (R219). -/
def execWait (x : CtxId) (s : State) : Out :=
  runNirm s x isWaitSlot (fun v w =>
    let k := wFunc w
    match v.slot k with
    | .idle => .fault fOperand
    | .busy _ _ => .pause s v (.slot (wRd w) k)
    | .done r => .next s ((v.setSlot k .idle).setG (wRd w) (w64 r)))

/-- WAIT with func 8 (R219). -/
def execWaitSaggar (x : CtxId) (s : State) : Out :=
  runNirm s x (isOp (.wait 8)) (fun v w =>
    need v.dsag fOperand (match s.cmd? v.commit with
      | some c => if c.placedOk then setRd s v w 0 else .pause s v (.saggar (wRd w))
      | none => setRd s v w 0))

/-! ## DONE and FAIL (R176, R177, R220) -/

/-- The statuses of Table 4-6. -/
def listedStatus : List Nat :=
  [0x0000, 0x0001, 0x0002, 0x0003, 0x0004, 0x0005, 0x0010, 0x0011, 0x0012, 0x0013, 0x0014, 0x0015, 0x0016, 0x0017, 0x0018,
   0x0020, 0x0021, 0x0030, 0x0040, 0x0041]

/-- A STATUS that no handler may end with (R177). -/
def badStatus (st : Nat) : Bool :=
  [0x0011, 0x0020, 0x0021, 0x0030].contains st || (!listedStatus.contains st && decide (st < 0x8000))

/-- The invocation ends with STATUS st and its output (Table 5-7). -/
def State.invEnd (s : State) (x : CtxId) (v : Inv) (st : Nat) (segs : List Seg) (apply : Bool) : State :=
  match v.work, x with
  | .command n, _ =>
    (match s.cmd? n with
    | none => s.freeCtx x
    | some c =>
      let out := stampHead c segs
      let t := s.freeCtx x
      if apply && decide (st = 0) then (t.endApply c v.stagedBase v.stagedVal v.staged out v.erased v.large).flushOrigin c.die
      else t.endDiscard c out v.large)
  | .program _ _, .mgmt d => s.progEnd d v 0 (segs.flatMap segOctets)
  | .program _ _, .eng _ _ => s.freeCtx x

/-- A write of the invocation is not yet in both saggar copies (R33, R212). -/
def Inv.writing (v : Inv) : Bool :=
  v.slots.any (fun e => match e.2 with
    | .busy (.staged _ _ _ r) _ | .busy (.part _ _ r) _ => decide (r = 0)
    | .busy _ _ | .idle | .done _ => false)

/-- The apply of the changes of x's command waits: its home die holds it back (R334, R337), or octets that it
writes are still on their way to the saggar. -/
def State.applyWaits (s : State) (v : Inv) (st : Nat) : Bool :=
  match v.work with
  | .command n => (match s.cmd? n with
    | some c => decide (st = 0) && ((s.die c.die).applyHeld v.staged || (!v.staged.isEmpty && v.writing))
    | none => false)
  | .program _ _ => false

/-- DONE (R177, R220). While the apply of its changes waits, it has not ended. -/
def execDone (x : CtxId) (s : State) : Out :=
  runNirm s x (isOp .done) (fun v _ =>
    let st := beAt ((s.viewOf v).segsRead v.out 0 2).1 0 2
    need (decide (64 ≤ segsLen v.out)) fNoHead (need (!badStatus st) fFailCode
      (need (decide (s.locksOf (lockUser x) = [])) fLockHeld
        (.ended (if s.applyWaits v st then s else s.invEnd x v st v.out true)))))

/-- FAIL (R177, R220): octets 0 to 63 of the response area, with STATUS from the instruction. -/
def execFail (x : CtxId) (s : State) : Out :=
  runNirm s x (isOp .fail) (fun v w =>
    let st := wImm20 w % 65536
    need (!badStatus st && decide (st ≠ 0)) fFailCode (need (decide (s.locksOf (lockUser x) = [])) fLockHeld
      (.ended (s.invEnd x v st [.octets (beOctets 2 st ++ memRead v.rsp 2 62)] false))))

/-- YIELD (R165): charged, nothing of the handler changes; like every issue it leaves the context last in the rotation. -/
def execYield (x : CtxId) (s : State) : Out := runNirm s x (isOp .yield) (fun v _ => .next s v)

/-! ## Events, special registers, time (R221 to R223) -/

/-- SOURCE of a context's events (R477, R485). -/
def ctxSrc (x : CtxId) : Nat :=
  match x with
  | .eng e _ => srcOf 0x02 e
  | .mgmt d => srcOf 0x10 (d * 256)

/-- LOG (R221). -/
def execLog (x : CtxId) (s : State) : Out :=
  runNirm s x (isOp .log) (fun v w =>
    let a := (v.g (wRa w)).toNat
    let b := (v.g (wRb w)).toNat
    .next (s.raise (0xF000 + wFunc w) (ctxSrc x) (a % 2 ^ 32) (a / 2 ^ 32) (b % 2 ^ 32) (b / 2 ^ 32)) v)

/-- The special register n as MFS reads it (Table 6-1). -/
def Inv.special (v : Inv) (n : Nat) : W64 :=
  match n with
  | 0 => w64 v.pc
  | 1 => w64 (v.budget - v.charged - 1)
  | 2 => v.status
  | 3 => w64 v.tag
  | 4 => w64 v.conn
  | _ => w64 v.commit

/-- MFS (R222). -/
def execMfs (x : CtxId) (s : State) : Out := runNirm s x (isOp .mfs) (fun v w => setRd s v w (v.special (wFunc w)))

/-- MTS (R222): USER is written, REGSTAT stays. -/
def execMts (x : CtxId) (s : State) : Out :=
  runNirm s x (isOp .mts) (fun v w =>
    .next s { v with status := (v.g (wRa w) &&& ~~~0xFF#64) ||| (v.status &&& 0xFF#64) })

/-- RDTIME (R223). -/
def execRdtime (x : CtxId) (s : State) : Out := runNirm s x (isOp .rdtime) (fun v w => setRd s v w s.now)

/-- RDCYC (R223): 16 CLKE cycles to one of CLKT. -/
def execRdcyc (x : CtxId) (s : State) : Out :=
  runNirm s x (isOp .rdcyc) (fun v w => setRd s v w (w64 ((s.clock.cycles - v.start) * 16)))

/-! ## Register access (R174, R175, R224) -/

/-- The DIE of a place code in a register lies within the engine's reach. -/
def reaches (x : CtxId) (place : W64) : Bool :=
  match x with
  | .eng _ _ => false
  | .mgmt d => decide (d = 0) || decide (Wf.placeDie (place.toNat % 2 ^ 20) = d)

/-- The place code in a register: bits above 32 name no unit. -/
def regPlace (r : W64) : W32 := if r.toNat < 2 ^ 32 then r.setWidth 32 else 0xFFFFFFFF#32

/-- RDREG (R224). -/
def execRdreg (x : CtxId) (s : State) : Out :=
  runNirm s x (isOp .rdreg) (fun v w =>
    need (reaches x (v.g (wRa w))) fPriv
      (.pause s v (.rdreg (wRd w) (regPlace (v.g (wRa w))) (v.g (wRb w)))))

/-- WRREG (R224). -/
def execWrreg (x : CtxId) (s : State) : Out :=
  runNirm s x (isOp .wrreg) (fun v w =>
    need (reaches x (v.g (wRa w))) fPriv
      (.pause s v (.wrreg (regPlace (v.g (wRa w))) (v.g (wRb w)) ((v.g (wRd w)).setWidth 32))))

end Sys2Proof.Machine
end

