-- ==== Sys2Proof/Machine/NirmWake.lean ====
section
/-! DEFINITION. What ends the waits of a context (R164): directory, ledger, allocator, media, locks, fences, units, caches,
and WAITLIMIT (R166). -/

namespace Sys2Proof.Machine

/-- The wait of context x ends with its invocation changed to `v`. -/
def State.wake (s : State) (x : CtxId) (v : Inv) : State := s.setInv x (some { v with wait := .none })

/-- A waiting invocation of context x. -/
def State.onWait (s : State) (x : CtxId) (f : Inv → Wait → State) : State :=
  match s.inv x with
  | none => s
  | some v => f v v.wait

/-- The command of an invocation. -/
def State.cmdOf (s : State) (v : Inv) (f : Cmd → State) : State :=
  match s.cmd? v.commit with
  | some c => f c
  | none => s

/-! ## Directory (R202 to R207) -/

/-- An entry as DLOOK writes it, its CHAIN word a free value (R51, log 3). -/
def State.writeEntry (s : State) (d : Die) (v : Inv) (dst : Nat) (e : DirEntry) (tail : Octets) : Inv × State :=
  let f := s.free
  (v.setScr dst (d.entryOctets e (f.1.setWidth 32) ++ tail), f.2)

/-- DATA of an SRC DATA write stands in place (R219). -/
def placedFor (c : Cmd) (d : W64) : Bool := decide (wdSrc d ≠ 1) || c.placedOk

/-- The answer to a DINS whose room is decided (R205). -/
def State.insAnswer (s : State) (x : CtxId) (v : Inv) (rd : Nat) (desc : W64) (block : Octets) (room : Bool) : State :=
  if room = false then s.wake x (v.setG rd 0x1FFFFFFFF#64)
  else
    let len := blkLength (leAt block 8 8)
    let um := w64 (leAt block 56 8)
    let h := s.newHandle (homeDie x) (s.dieOf x v)
    let who : KeyName := { hash := w64 (leAt block 0 8), key := slice v.msg 40 (blkKeyLen (leAt block 40 8)) }
    if wdPend desc then
      let named := if wdNewent desc then some h else none
      let u := { v with staged := v.staged ++ [Staged.pend named who len um] }
      s.wake x (u.setG rd (if wdNewent desc then h.setWidth 64 else 0xFFFFFFFF#64))
    else
      let u := { v with staged := v.staged ++ [Staged.ins h who (wdSrc desc) (leAt block 16 8) len um] }
      s.wake x (u.setG rd (h.setWidth 64))

/-- The answer to a DUPD (R206). -/
def State.updAnswer (s : State) (x : CtxId) (v : Inv) (rd : Nat) (h : W32) (desc : W64) (block : Octets) : State :=
  let d := s.dieOf x v
  let id := leAt block 16 8
  let stage (len : Nat) (um : W64) : State :=
    let u := { v with staged := v.staged ++ [Staged.upd h (wdSrc desc) id len um] }
    s.wake x (u.setG rd 0)
  match d.byHandle h with
  | none => s.wake x (v.setG rd 1)
  | some e =>
    if wdSrc desc = 4 then
      match d.put? id with
      | some p =>
        if p.keyHash ≠ e.keyHash ∨ p.nsid ≠ e.nsid then s.wake x (v.setG rd 2)
        else if p.missing.isSome then s.wake x (v.setG rd 3)
        else stage p.length p.usermeta
      | none => s.wake x (v.setG rd 2)
    else stage (blkLength (leAt block 8 8)) (w64 (leAt block 56 8))

/-- The request of invocation v has reached the directory port: a write of DATA reaches it once DATA is in place (R219). -/
def State.atPort (s : State) (v : Inv) : Bool :=
  v.wait.directory && (match v.wait with
    | .ins _ desc _ _ | .upd _ _ desc _ => (match s.cmd? v.commit with
      | some c => placedFor c desc
      | none => true)
    | _ => true)

/-- No request that the cluster's directory port received before that of context x is still to be served (R149). -/
def State.portServes (s : State) (x : CtxId) (v : Inv) : Bool :=
  match x with
  | .mgmt _ => true
  | .eng e _ => !s.eng.ctxs.any (fun p => decide (p.1 / 64 = e / 8) && (match p.2 with
      | some u => s.atPort u && decide (u.ticket < v.ticket)
      | none => false))

/-- The directory's answer to what context x waits for, in the order of the cluster's port (R149). -/
def State.dirReply (s : State) (x : CtxId) : State :=
  s.onWait x (fun v wt => whenDo (s.portServes x v) s (match wt with
    | .lookup rd hash ns k dst =>
      let d := s.dieOf x v
      let cs := d.candidates hash ns
      let u := v.setG rd (w64 cs.length)
      (match cs[k]? with
      | some e => let r := s.writeEntry d u dst e []
                  r.2.wake x r.1
      | none => s.wake x u)
    | .putRec rd id dst =>
      (match (s.dieOf x v).put? id with
      | some p => s.wake x ((v.setScr dst (p.octets ++ keyRecord 0 p.usermeta p.key)).setG rd 1)
      | none => s.wake x (v.setG rd 0))
    | .ins rd desc block (some room) =>
      s.cmdOf v (fun c => whenDo (placedFor c desc) s (s.insAnswer x v rd desc block room))
    | .upd rd h desc block =>
      s.cmdOf v (fun c => whenDo (placedFor c desc) s (s.updAnswer x v rd h desc block))
    | .del rd h =>
      if ((s.dieOf x v).byHandle h).isSome then
        s.wake x ({ v with staged := v.staged ++ [Staged.del h] }.setG rd 0)
      else s.wake x (v.setG rd 1)
    | _ => s))

/-- DIRECTORY_REPLY (R202 to R207). -/
def execDirectoryReply (x : CtxId) (s : State) : Out := outcome (Wf.ctxId x) (s.dirReply x)

/-- SUCC_ANSWER (R203): the merged answer of the four store dies. -/
def execSuccAnswer (x : CtxId) (s : State) : Out :=
  outcome (Wf.ctxId x) (s.onWait x (fun v wt => match wt with
    | .succ rd ns key dst =>
      whenDo (s.succReady v.commit ns) s
        (let w := s.viewOf v
         match w.liveKeys ns (fun k => decide (octetsCmp key k < 0)) with
         | [] => s.wake x (v.setG rd 0)
         | e :: _ =>
           let d := w.die (handleDie e.handle)
           let r := s.writeEntry d (v.setG rd 1) dst e (d.recordOf e)
           r.2.wake x r.1)
    | .factory .succ => s.resume x .succ
    | _ => s))

/-- LEDGER_ROOM_READY (R298). -/
def execLedgerRoomReady (x : CtxId) (s : State) : Out :=
  outcome (Wf.ctxId x) (s.onWait x (fun v wt => match wt with
    | .ins rd desc block none =>
      s.cmdOf v (fun c => whenDo ((s.die c.die).ledger.appliedBelow c.commit) s
        (let room := s.hasRoom c.die (c.region % 4) (s.dieOf x v) (wdPend desc) (wdNewent desc) (blkLength (leAt block 8 8))
         s.park x { v with wait := .ins rd desc block (some room) }))
    | .factory .ledger => s.resume x .ledger
    | _ => s))

/-- ALLOC_RESERVE (R250): a creating SADD reserves its row, or finds none free. -/
def execAllocReserve (x : CtxId) (s : State) : Out :=
  outcome (Wf.ctxId x) (s.onWait x (fun v wt => match wt with
    | .sadd rd rm stem prio h =>
      whenDo (s.sel.appliedBelow v.commit && s.allocRuns) s
        (match s.sel.place stem with
        | none => s.wake x (v.setG rd 0)
        | some i =>
          let row : List Staged := [.row i rm stem prio h true]
          let t := s.reserveRows v.commit row
          t.wake x ({ v.clearLog stem with staged := v.staged ++ row }.setG rd 1))
    | .factory .alloc => s.resume x .alloc
    | _ => s))

/-! ## Media (R210 to R214) -/

/-- The result number of a reading that stopped (Table 6-14). -/
def ReadRes.result : ReadRes → Nat
  | .ok _ => 0
  | .unreadable => 1
  | .unreachable => 2

/-- Value-cache location of `n` octets, in 256-octet units past the row copies and before the superblock table, when room allows (R211, R241, R324). -/
def Die.cachePlace (d : Die) (n : Nat) : Option Nat :=
  let used := (d.dir.filter (fun e => e.2.live && e.2.cached)).map (fun e => (e.2.cacheRef, max 1 (ceilDiv e.2.length 256)))
  let p := lowestGap (33554432 / 256) (max 1 (ceilDiv n 256)) used
  if p + ceilDiv n 256 ≤ 10670309376 / 256 then some p else none

/-- MREAD FILL (R211): a value held by no staged change is placed in the cache when room allows. -/
def Die.fill (d : Die) (e : DirEntry) : Die :=
  let r := d.valueRead e 0 e.length
  match d.cachePlace e.length with
  | some p =>
    if r.2.isNone then
      { d.setEntry (handleSlot e.handle) { e with cached := true, cacheRef := p } with
        cache := tabSet (fun _ => []) d.cache (handleSlot e.handle) r.1 }
    else d
  | none => d

/-- What a media operation of context x comes to: the state, the invocation and the result; none while it cannot end. A read sees
the changes staged before it issued (R211). A read of the value of an entry in STATE 2 answers RANGE, a FILL of it NOTFOUND
(DESIGN CHOICE, log 116). -/
def State.mediaEnd (s : State) (x : CtxId) (v : Inv) (seen : Nat) (c : Cmd) (op : MediaOp) : Option (State × Inv × Nat) :=
  let d := s.dieOf x { v with staged := v.staged.take seen }
  match op with
  | .value h chunk coff clen dst =>
    (match d.liveBy h with
    | none => some (s, v, match d.byHandle h with
        | some _ => 4
        | none => 3)
    | some e =>
      if e.length < chunk * 65536 + coff + clen then some (s, v, 4)
      else
        let r := d.valueRead e (chunk * 65536 + coff) clen
        match r.2 with
        | some bad => some (s, v, bad.result)
        | none => some (s, v.setScr dst r.1, 0))
  | .keyrec h dst =>
    (match d.byHandle h with
    | none => some (s, v, 3)
    | some e => match (if e.live then d.chunkRead e 0 else .ok []) with
      | .ok _ => some (s, v.setScr dst (d.recordOf e), 0)
      | bad => some (s, v, bad.result))
  | .fill h =>
    (match d.liveBy h with
    | none => some (s, v, 3)
    | some e =>
      if (s.die c.die).liveBy h = some e then some (s.modDie c.die (fun d => d.fill e), v, 0) else some (s, v, 0))
  | .staged _ off data r =>
    if r ≠ 0 then some (s, v, r)
    else
      let k := s.die c.die
      let up := k.online && !k.stackLost && !(s.die ((c.die + 1) % 4)).stackLost
      if up then (k.placeStaged c.commit c.nsid off data).map (fun k => (s.modDie c.die (fun _ => k), v, 0)) else none
  | .part _ _ r => if r ≠ 0 ∨ c.placedOk then some (s, v, r) else none
  | .mdisc _ r => some (s, v, r)
  | .msdisc _ => if (s.die c.die).purging c.commit then none else some (s, v, 0)

/-- A result lands in its slot; a context that waits on the slot goes on (R210, R219). -/
def Inv.landed (v : Inv) (k r : Nat) : Inv :=
  match v.wait with
  | .slot rd j => if j = k then { (v.setSlot k .idle).setG rd (w64 r) with wait := .none } else v.setSlot k (.done r)
  | _ => v.setSlot k (.done r)

/-- MEDIA_RESULT (R210): a read of a LUN in a RESET waits for its end (R276). The MSDISC of the default SDISCARD ends by it too
(R214). -/
def execMediaResult (x : CtxId) (slot : Nat) (s : State) : Out :=
  outcome (Wf.ctxId x && Wf.mediaSlot slot) (s.onWait x (fun v wt => match wt with
    | .factory .erase => s.resume x .erase
    | _ => match v.slot slot with
      | .busy op seen => s.cmdOf v (fun c =>
          let d := s.die (homeDie x)
          match s.mediaEnd x v seen c op with
          | some (t, u, r) => whenDo ((d.opReads op).all d.lunFree) s (t.setInv x (some (u.landed slot r)))
          | none => s)
      | .idle => s
      | .done _ => s))

/-! ## Locks, fences, units, caches (R149, R164, R169, R217, R218) -/

/-- LOCK_GRANT (R441): a free lock passes to its first waiter, which receives ABANDONED when the lock is so flagged. -/
def execLockGrant (place : Nat) (s : State) : Out :=
  let l := s.hwLock place
  let t := match l.owner, l.waiters with
    | none, u :: rest =>
      let t := s.modLock place (fun l => { l with owner := some u, aband := false, waiters := rest })
      t.onWait u.ctxId (fun v wt => match wt with
        | .lock rd p => if p = place then t.wake u.ctxId (v.setG rd (w64 (bit01 l.aband))) else t
        | _ => t)
    | _, _ => s
  outcome (Wf.lock place) t

/-- The condition of a FENCE (R217). -/
def State.fenceOk (s : State) (c : Cmd) (f : Nat) : Bool :=
  match f with
  | 0 => s.fenceMet c false
  | 1 => s.fenceMet c true
  | 2 => !s.unflushed c.commit (fun n => decide (n = c.nsid))
  | _ => !s.unflushed c.commit (fun _ => true)

/-- FENCE_RELEASE (R142, R217): after CONN and PKG later commands of the connection are held. -/
def execFenceRelease (x : CtxId) (s : State) : Out :=
  outcome (Wf.ctxId x) (s.onWait x (fun v wt => match wt with
    | .fence f => s.cmdOf v (fun c => whenDo (s.fenceOk c f) s
        ((if f < 2 then s.modCmd c.commit (fun c => { c with fenced := true }) else s).wake x v))
    | .factory .fence => s.resume x .fence
    | _ => s))

/-- The context with a number in a unit's queue. -/
def ctxOfNo (n : Nat) : CtxId := .eng (n / 8) (n % 8)

/-- LARGE_UNIT_GRANT (R169): a free unit goes to the earliest waiting handler. -/
def execLargeUnitGrant (die : Nat) (s : State) : Out :=
  let t := match s.largeQueue die with
    | [] => s
    | n :: rest =>
      let x := ctxOfNo n
      let t := s.setLargeQueue die rest
      t.onWait x (fun v wt => match wt with
        | .large a k => t.wake x { v.emit a k with large := true }
        | .factory .large => (t.setInv x (some { v with large := true })).resume x .large
        | _ => t)
  outcome (Wf.die die) (whenDo (decide (s.unitsUsed die < 16)) s t)

/-- ICACHE_FILL_DONE (R149). -/
def execIcacheFillDone (x : CtxId) (s : State) : Out :=
  outcome (Wf.ctxId x) (s.onWait x (fun v wt => whenDo (decide (wt = .icache)) s (s.wake x v)))

/-- SPILL_ACCESS_DONE (R164). -/
def execSpillAccessDone (x : CtxId) (s : State) : Out :=
  outcome (Wf.ctxId x) (s.onWait x (fun v wt => whenDo (decide (wt = .spill)) s (s.wake x v)))

/-- WINDOW_LOAD_DONE (R168). -/
def execWindowLoadDone (x : CtxId) (s : State) : Out :=
  outcome (Wf.ctxId x) (s.onWait x (fun v wt => whenDo (decide (wt = .window)) s (s.wake x v)))

/-! ## WAITLIMIT (R166) -/

/-- The wait is timed (R166). -/
def State.timed (s : State) (v : Inv) : Bool :=
  match v.wait with
  | .none => false
  | .lookup _ _ _ _ _ | .putRec _ _ _ | .del _ _ | .sel _ _ _ _ | .selNext _ _ _ _ _ _ | .lock _ _ | .icache | .spill
  | .window | .rdreg _ _ _ | .wrreg _ _ _ => true
  | .ins _ d _ room => room.isSome && (decide (wdSrc d ≠ 1) || (s.cmd? v.commit).any Cmd.placedOk)
  | .upd _ _ d _ => decide (wdSrc d ≠ 1) || (s.cmd? v.commit).any Cmd.placedOk
  | .slot _ k => (match v.slot k with
    | .busy (.msdisc _) _ => false
    | .busy _ _ => true
    | .idle => true
    | .done _ => true)
  | .factory .search => true
  | .factory .saggar => decide (v.image = .factory 0x09)
  | .succ _ _ _ _ | .sadd _ _ _ _ _ | .saggar _ | .fence _ | .large _ _ | .factory _ => false

/-- WAITLIMIT (R166): the handler ends with HFAULT. Where a factory image stands is a free value (log 12). -/
def execWaitlimit (x : CtxId) (s : State) : Out :=
  outcome (Wf.ctxId x) (s.onWait x (fun v wt => whenDo (s.timed v) s (match wt with
    | .factory _ =>
      let f := s.free
      f.2.invFault x v fWaitLimit (f.1.toNat % 2 ^ 14) (f.1.toNat / 2 ^ 16 % 2 ^ 16)
    | _ => s.invFault x v fWaitLimit v.waitPc v.waitCharge)))

end Sys2Proof.Machine
end

