-- ==== Sys2Proof/Machine/Steering.lean ====
section
/-! DEFINITION. Stage 4 (05, R415): the command record (R153, R229), the region and engine of a command, the wait for a binding
of its slot (R159, R235, R236). -/

namespace Sys2Proof.Machine

/-! ## The command record (R153, R229) -/

/-- Octets of a message replaced from offset `off`. -/
def patch (m : Octets) (off : Nat) (o : Octets) : Octets :=
  let w := fitTo (max m.length (off + o.length)) m
  w.take off ++ o ++ w.drop (off + o.length)

/-- Octets 8 and 11 as the port die writes them for namespace entry `e`: `outside` tells that the credential does not reach
the namespace, or that a forwarder found NSBAD. -/
def State.record (s : State) (m : Octets) (outside : Bool) : Octets :=
  let e := s.nsEntry (msgNsid m)
  let bits := 128 * bit01 (!nsEnabled e || outside) + 16 * bit01 (nsSepEn e)
  patch (patch m 8 [BitVec.ofNat 8 (bits + headAt m 8 1 % 16)]) 11 [nsSep e]

/-- MODERO and NSRO of a record, for the class of the entry in force. -/
def Cmd.stampClass (c : Cmd) : Octets :=
  let w := clsWrites c.entry.cls
  let o := headAt c.msg 8 1
  patch c.msg 8 [BitVec.ofNat 8 (o / 128 * 128 + 64 * bit01 (w && c.pkgRo) + 32 * bit01 (w && c.nsRdonly) + o % 32)]

/-! ## The apply streams (R249, R297) -/

/-- The streams of the ledger and the allocator hear of the command; of one without an entry yet, both do. -/
def State.announce (s : State) (c : Cmd) : State :=
  let t := if c.unbound ∨ c.entry.cls = clsOwrite then
      s.modDie c.die (fun d => { d with ledger := { d.ledger with stream := insertBy (fun e => e.1) (c.commit, none) d.ledger.stream } })
    else s
  if c.unbound || clsWrites c.entry.cls then
    { t with sel := { t.sel with stream := insertBy (fun e => e.1) (c.commit, none) t.sel.stream } }
  else t

/-- The streams no longer expect a command. -/
def State.unannounce (s : State) (c : Cmd) : State :=
  let t := s.modDie c.die (fun d => { d with ledger := { d.ledger with
    stream := d.ledger.stream.filter (fun e => e.1 != c.commit) } })
  { t with sel := { t.sel with stream := t.sel.stream.filter (fun e => e.1 != c.commit) } }

/-! ## Engines -/

/-- The command queues at an engine of this package; DATA of a DSAG command goes to the saggar, other DATA beyond octet 511
waits for its grant. What it held on another store die is given up there. -/
def State.enqueueAt (s : State) (c : Cmd) (g e : Nat) : State :=
  let moves := decide (g / 4 ≠ c.die)
  let c' : Cmd := if moves then { c with region := g, data := none, granted := 0 } else { c with region := g }
  let t := if moves then ((s.unannounce c).dropPlaced c).announce c' else s
  let place : Option Placed := if c.entry.dsag then
      some (c'.data.getD { die := g / 4, ref := 0, home := false, mirror := false }) else none
  let waits := !c.entry.dsag && decide (512 < c.msg.length) && decide (c'.granted = 0)
  t.modCmd c.commit (fun k => { k with
    region := g, engine := e, link := s.linkFor (g / 4) (g % 4), data := place, granted := c'.granted, phase := if waits then .waitGrant else .queued })

/-- The package that received command c executes it itself (R415). -/
def Cmd.local (c : Cmd) : Bool := !c.hasStem || decide (c.entry.cls = clsSpan) || decide (c.entry.cls = clsNone)

/-- A command that its package executes itself takes the next region in service from `g` on; with none it ends with
UNREACHABLE (R152). -/
def State.steerLocal (s : State) (c : Cmd) (g e : Nat) : State :=
  match s.steerFrom g e with
  | some p => s.enqueueAt c p.1 p.2
  | none => s.endDiscard c (c.built 0x0041 0) false

/-- Stage 4 for a command of the list (R150 to R152, R415). -/
def State.steer (s : State) (c : Cmd) : State :=
  let p := steerOf c.hasStem c.stemHash c.conn
  let unreachable := s.endDiscard c (c.built 0x0041 0) false
  if c.local then s.steerLocal c p.1 p.2
  else
    let here := !s.globalOffline p.1 && (s.sel.complete || !clsSelects c.entry.cls)
    let own := (c.pkgRo && clsWrites c.entry.cls) || c.origin.isSome ||
      (match s.executorOf c here with
      | some m => decide (m.uid = Config.uid)
      | none => false)
    if own && here then
      match s.engineFor p.1 p.2 with
      | some e => s.enqueueAt c p.1 e
      | none => unreachable
    else if own then unreachable
    else s.forward c

/-! ## Bindings that a command waits for (R235, R236) -/

/-- The entry in force at commit number `commit` for opcode `op` is still to come: an HBIND or HEMPTY of the slot with a lower
number waits, or the handler table is stopped below it. -/
def State.unboundAt (s : State) (op commit : Nat) : Bool :=
  (s.fn 49).holds commit ||
  s.eng.treqs.any (fun r => (decide (headAt r.msg 6 2 = 0x0010) || decide (headAt r.msg 6 2 = 0x0011)) &&
    decide (headAt r.msg 16 1 = op) && decide (r.commit < commit))

/-- A command that waited for a binding takes the entry and image in force, and is steered. -/
def State.bindCmd (s : State) (c : Cmd) : State :=
  let h := s.hslot c.opcode
  let c1 : Cmd := { c with entry := h.entry, image := h.image, unbound := false }
  let c2 : Cmd := { c1 with msg := c1.stampClass }
  State.steer (((s.modCmd c.commit (fun _ => c2)).unannounce c).announce c2) c2

/-- The commands whose bindings are in force are bound, in commit order. -/
def State.settleBound (s : State) : State :=
  (sortBy (fun c => c.commit) (s.eng.cmds.filter (fun c =>
    c.unbound && c.open_ && !s.unboundAt c.opcode c.commit))).foldl (fun s c => s.bindCmd c) s

end Sys2Proof.Machine
end

