-- ==== Sys2Proof/Machine/Wot.lean ====
section
/-! DEFINITION. The WOT terminator's operations (03): items, keys, sending frames on a connection, its end, the request
stream with the admission gate (R93 to R97, R134), acknowledgement and loss (R104 to R106). -/

namespace Sys2Proof.Machine

/-! ## Items (Table 3-6) -/

def itemOctets : Item → Octets
  | .pad => [0x00#8]
  | .req off data => [0x01#8, 0#8] ++ beOctets 2 data.length ++ beOctets 6 off ++ data
  | .rsp last rsn tag off data =>
    [0x02#8, if last then 1#8 else 0#8] ++ beOctets 2 data.length ++ beOctets 6 rsn ++ beOctets 2 tag ++ beOctets 6 off ++ data
  | .ack delay largest map => [0x03#8, 0#8] ++ beOctets 2 delay ++ beOctets 6 largest ++ beOctets 8 map.toNat
  | .window value => [0x04#8, 0#8, 0#8, 0#8] ++ beOctets 8 value
  | .ping => [0x05#8]
  | .close final => [0x06#8, 0#8, 0#8, 0#8] ++ beOctets 6 final
  | .reset reason detail => [0x07#8, BitVec.ofNat 8 reason, 0#8, 0#8] ++ beOctets 6 detail

/-- One item that a client may send, with the octets it takes; none where R91 finds a fault. -/
def clientItem (o : Octets) : Option (Item × Nat) :=
  let fits (n : Nat) (zero : Octets) (i : Item) : Option (Item × Nat) :=
    if n ≤ o.length ∧ allZero zero then some (i, n) else none
  match beAt o 0 1 with
  | 0x00 => some (.pad, 1)
  | 0x01 =>
    let len := beAt o 2 2
    if 1 ≤ len ∧ len ≤ 8962 then fits (10 + len) (slice o 1 1) (.req (beAt o 4 6) (slice o 10 len)) else none
  | 0x03 => fits 18 (slice o 1 1) (.ack (beAt o 2 2) (beAt o 4 6) (w64 (beAt o 10 8)))
  | 0x04 => fits 12 (slice o 1 3) (.window (beAt o 4 8))
  | 0x05 => some (.ping, 1)
  | 0x06 => fits 10 (slice o 1 3) (.close (beAt o 4 6))
  | 0x07 => fits 10 (slice o 2 2) (.reset (beAt o 1 1) (beAt o 4 6))
  | _ => none

/-- The items of a client frame's body. -/
def clientItems : Nat → Octets → Option (List Item)
  | 0, _ => none
  | n + 1, o =>
    match clientItem o with
    | none => none
    | some (i, k) =>
      if o.length = k then some [i] else (clientItems n (o.drop k)).map (fun l => i :: l)

/-- A frame that carries the item needs an acknowledgement (R104). -/
def Item.needsAck : Item → Bool
  | .req _ _ | .rsp _ _ _ _ _ | .ping | .close _ => true
  | .pad | .ack _ _ _ | .window _ | .reset _ _ => false

/-- Response octets of an item. -/
def Item.rspLen : Item → Nat
  | .rsp _ _ _ _ d => d.length
  | .pad | .req _ _ | .ack _ _ _ | .window _ | .ping | .close _ | .reset _ _ => 0

/-- RSP octets and CLOSE items go again after a loss (R105). -/
def Item.resent : Item → Bool
  | .rsp _ _ _ _ _ | .close _ => true
  | .pad | .req _ _ | .ack _ _ _ | .window _ | .ping | .reset _ _ => false

def Item.isClose : Item → Bool
  | .close _ => true
  | .pad | .req _ _ | .rsp _ _ _ _ _ | .ack _ _ _ | .window _ | .ping | .reset _ _ => false

/-! ## Credentials and keys (R79 to R85) -/

/-- PSK of the root management credential (R80). -/
def State.rootPsk (s : State) : BitVec 256 :=
  BitVec.ofNat 256 (beNat (hkdfExpand (beOctets 32 s.otp.rootMgmt.toNat) (ascii "wot root credential") 32))

/-- Credential table entry n in force. -/
def State.cred (s : State) (n : Nat) : Cred :=
  if n = 0 then { valid := true, mgmt := true, psk := s.rootPsk } else tabGet (fun _ => {}) s.tables.creds n

/-- KH of a PSK (R83). -/
def handshakeKey (psk : BitVec 256) : Octets :=
  hkdfExpand (hkdfExtract (zeros 32) (beOctets 32 psk.toNat)) (ascii "wot handshake") 32

/-- KCD and KDC of a session (R83). -/
def sessionKey (psk : BitVec 256) (nc nd : Octets) (label : String) (conn : Nat) : Octets :=
  hkdfExpand (hkdfExtract (nc ++ nd) (beOctets 32 psk.toNat)) (ascii label ++ beOctets 2 conn) 32

/-- The nonce of a DATA frame; `dir` 0 client to device, 1 device to client (R85). -/
def wotNonce (conn dir pn : Nat) : Octets := beOctets 2 conn ++ [BitVec.ofNat 8 dir] ++ zeros 3 ++ beOctets 6 pn

/-- The WOT frame header (Table 3-1). -/
def wotHead (type conn pn : Nat) : Octets :=
  [BitVec.ofNat 8 (16 + type), 0#8] ++ beOctets 2 conn ++ beOctets 6 pn ++ zeros 2

/-! ## Sending -/

/-- A connection that carries frames. -/
def Conn.live (k : Conn) : Bool := decide (k.state = .open) || decide (k.state = .closing)

/-- A WOT payload leaves along a path (R75, R76, R382); without a unicast entry for the path's address it is discarded. -/
def State.wotEmit (s : State) (p : Path) (payload : Octets) : State :=
  match unicastOf (s.mac p.mac).live p.pip with
  | none => s.bumpMac p.mac 21 1
  | some e =>
    let tag := p.vlan.map (fun v => (p.prio, v))
    s.enqueue p.mac p.prio
      { octets := udpFrame p.eth.toNat (filterEth e) tag p.dscp 64 p.pip p.ip p.pport p.port payload }

/-- One DATA frame with the next PN of the connection (R85, R92). -/
def State.wotData (s : State) (c : Nat) (items : List Item) : State :=
  let k := s.conn c
  match k.path with
  | none => s
  | some p =>
    let o := wotHead 3 c k.pnTx ++ items.flatMap itemOctets
    let sent : Sent := { pn := k.pnTx, items, time := s.clock.cycles }
    let t := s.modConn c (fun k => { k with
      pnTx := k.pnTx + 1, unacked := if items.any Item.needsAck then k.unacked ++ [sent] else k.unacked })
    t.wotEmit p (o ++ gcmTag k.kdc (wotNonce c 1 k.pnTx) o)

/-- A connection ends (R109): its number goes to QUIET, its stream is discarded uncommitted, its responses are discarded. -/
def State.endConn (s : State) (c : Nat) : State :=
  let k := s.conn c
  let of_ (i gen : Nat) : Bool := decide (i = c) && decide (gen = k.gen)
  let t := s.modConn c (fun k => { state := .quiet, gen := k.gen + 1 })
  let t : State := { t with wot := { t.wot with
    term := t.wot.term.filter (fun i => match i with
      | .item i g _ => !of_ i g
      | .init _ _ => true)
    gate := t.wot.gate.filter (fun m => !of_ m.conn m.gen)
    aborts := t.wot.aborts.filter (fun a => !of_ a.conn a.gen) } }
  k.rsps.foldl (fun s r =>
    if r.counted then
      (match s.cmd? r.commit with
      | some _ => s.finishCmd r.commit
      | none => { s with wot := { s.wot with outstanding := s.wot.outstanding - 1 } })
    else s) t

/-- A RESET item leaves and the connection ends (R107). -/
def State.resetConn (s : State) (c reason detail : Nat) : State :=
  ((s.wotData c [.reset reason detail]).bumpWot 6).endConn c

/-- Items leave in one frame; the last PN carries the RESET of PNEND (R92). -/
def State.wotSend (s : State) (c : Nat) (items : List Item) : State :=
  let k := s.conn c
  if k.live then
    if 2 ^ 48 - 1 ≤ k.pnTx then s.resetConn c 7 0 else s.wotData c items
  else s

/-- The ACK item of a connection: LARGEST and MAP of the frames received, DELAY in units of 10 ns. -/
def Conn.ackItem (k : Conn) (now : Nat) : Item :=
  let largest := k.pns.headD 0
  let bits := (upto 64).filter (fun i => k.pns.contains (largest - 1 - i) && decide (i + 1 < largest + 1))
  .ack (min 65535 (now - k.lastRx)) largest (w64 (sumOf (fun i => 2 ^ i) bits))

/-- An ACK leaves, and none is owed. -/
def State.sendAck (s : State) (c : Nat) : State :=
  let k := s.conn c
  (s.modConn c (fun k => { k with ackOwed := 0 })).wotSend c [k.ackItem s.clock.cycles]

/-- Unpledged octets of the request-limit pool (R100). -/
def State.poolFree (s : State) : Nat := 50331648 - sumOf (fun e => e.2.limit - e.2.consumed) s.wot.conns

/-! ## The request stream (R93 to R97) -/

/-- `n` stream octets from position `pos`, where all of them have arrived. -/
def gather (segs : List (Nat × Octets)) : Nat → Nat → Nat → Option Octets
  | 0, _, n => if n = 0 then some [] else none
  | fuel + 1, pos, n =>
    if n = 0 then some []
    else match segs.find? (fun g => decide (g.1 ≤ pos) && decide (pos < g.1 + g.2.length)) with
      | none => none
      | some g =>
        let got := (g.2.drop (pos - g.1)).take n
        (gather segs fuel (pos + got.length) (n - got.length)).map (fun rest => got ++ rest)

def Conn.stream (k : Conn) (pos n : Nat) : Option Octets := gather k.segs (k.segs.length + 1) pos n

/-- The parts of octets at a stream position that a segment does not hold. -/
def outsideSeg (g p : Nat × Octets) : List (Nat × Octets) :=
  let cut := g.1 + g.2.length - p.1
  [(p.1, p.2.take (g.1 - p.1)), (p.1 + cut, p.2.drop cut)].filter (fun q => decide (q.2 ≠ []))

/-- A REQ item's octets: those below the consumed position and those already received are ignored (R93). -/
def Conn.place (k : Conn) (off : Nat) (data : Octets) : Conn :=
  let cut := k.consumed - off
  let new := k.segs.foldl (fun ps g => ps.flatMap (outsideSeg g))
    ([(off + cut, data.drop cut)].filter (fun q => decide (q.2 ≠ [])))
  { k with segs := k.segs ++ new, high := max k.high (off + data.length) }

/-- The message of `pos` when it is whole: its octets; or its MSGLEN when that is out of range (R96). -/
inductive MsgAt where
  | short
  | badLen
  | whole (o : Octets)
deriving DecidableEq, Repr

def Conn.msgAt (k : Conn) (pos : Nat) : MsgAt :=
  match k.stream pos 4 with
  | none => .short
  | some h =>
    let n := beNat h
    if n < 8 ∨ 266240 < n then .badLen
    else match k.stream pos n with
      | none => .short
      | some o => .whole o

/-- The stream position of `pos` is consumed up to `pos`. -/
def Conn.consume (k : Conn) (pos : Nat) : Conn :=
  { k with consumed := pos, segs := k.segs.filter (fun g => decide (pos < g.1 + g.2.length)) }

/-- The message at a stream position was caught by an ABORT (R144). -/
def State.caught (s : State) (c pos : Nat) : Bool :=
  s.wot.aborts.any (fun a => decide (a.conn = c) && decide (a.gen = (s.conn c).gen) && decide (a.outcome = 1) && decide (a.target = pos))

/-- Outstanding tags allowed (R96). -/
def Conn.tagMax (k : Conn) : Nat := if k.mgmt then 64 else 1024

/-- The body decodes as the kind of the connection (R112, R510). -/
def decodesAs (mgmt : Bool) (o : Octets) : Bool :=
  !mgmt || (decide (16 ≤ o.length) && allZero (slice o 8 8))

/-- The next message of a connection goes to the admission gate when it meets R95, messages caught by an ABORT are discarded,
and the first failure of R96 resets the connection. A body that does not decode (R112) is looked at before TAG (DESIGN CHOICE, log
112). -/
def State.present (s : State) (c : Nat) : Nat → State
  | 0 => s
  | fuel + 1 =>
    let k := s.conn c
    if k.live = false ∨ s.wot.gate.any (fun m => decide (m.conn = c) && decide (m.gen = k.gen)) then s
    else match k.msgAt k.consumed with
      | .short => s
      | .badLen => s.resetConn c 4 k.consumed
      | .whole o =>
        let pos := k.consumed
        if s.caught c pos then (s.modConn c (fun k => k.consume (pos + o.length))).present c fuel
        else if decodesAs k.mgmt o = false then s.resetConn c 8 0
        else
          let tag := beAt o 4 2
          if k.tagMax ≤ tag ∨ k.tags.contains tag then s.resetConn c 2 pos
          else
            let m : GateMsg := { conn := c, gen := k.gen, mgmt := k.mgmt, pos, msg := o }
            { s with wot := { s.wot with gate := s.wot.gate ++ [m] } }

/-- A connection that closes sends CLOSE when every whole message below FINAL is committed and answered; octets of a message
that FINAL cuts are discarded (R107). -/
def State.settleClose (s : State) (c : Nat) : State :=
  let k := s.conn c
  match k.state, k.final, k.closeSent with
  | .closing, some f, none =>
    let arrived := (k.stream k.consumed (f - k.consumed)).isSome
    let done := s.wot.gate.all (fun m => !(decide (m.conn = c) && decide (m.gen = k.gen))) && decide (k.tags = []) && decide (k.rsps = [])
    if arrived && done then
      (s.modConn c (fun k => let j := k.consume f
        { j with closeSent := some k.lastRsn })).wotSend c [.close k.lastRsn]
    else s
  | _, _, _ => s

/-- Messages of a connection go on to the gate, and its close goes on: the messages passed over are those caught by an ABORT. -/
def State.settleConn (s : State) (c : Nat) : State := (s.present c (s.wot.aborts.length + 2)).settleClose c

/-! ## ABORT (R143, R144) -/

/-- The whole messages of a stream from a position on, uncommitted, in stream order. -/
def Conn.messages (k : Conn) : Nat → Nat → List (Nat × Octets)
  | 0, _ => []
  | fuel + 1, pos => match k.msgAt pos with
    | .whole o => (pos, o) :: k.messages fuel (pos + o.length)
    | .short => []
    | .badLen => []

def Conn.uncommitted (k : Conn) : List (Nat × Octets) := k.messages (k.high - k.consumed) k.consumed

/-- ABORT messages that have arrived whole, with every earlier one, and have no outcome yet. -/
def State.noteAborts (s : State) (c : Nat) : State :=
  let k := s.conn c
  if k.mgmt then s
  else
    let known := s.wot.aborts.filter (fun a => decide (a.conn = c) && decide (a.gen = k.gen))
    let new := k.uncommitted.filter (fun m => decide (msgOpcode m.2 = 0x13) && !known.any (fun a => decide (a.pos = m.1)) &&
      !s.caught c m.1)
    let more := new.map (fun m => ({ conn := c, gen := k.gen, pos := m.1, outcome := 3, target := 0 } : AbortRec))
    { s with wot := { s.wot with aborts := s.wot.aborts ++ more } }

/-! ## Acknowledgement and loss (R104 to R106) -/

/-- Response octets sent and unacknowledged (R103). -/
def Conn.inFlight (k : Conn) : Nat := sumOf (fun f => sumOf Item.rspLen f.items) k.unacked

/-- An ACK covers a packet number. -/
def ackCovers (largest : Nat) (map : BitVec 64) (pn : Nat) : Bool :=
  decide (pn = largest) || (decide (pn < largest) && decide (largest - 1 - pn < 64) && map.getLsbD (largest - 1 - pn))

/-- The retransmission timer's RTT estimate with one sample, in CLKT cycles (RFC 6298). -/
def Conn.sample (k : Conn) (r : Nat) : Conn :=
  if k.rttKnown then
    let dev := if k.srtt < r then r - k.srtt else k.srtt - r
    { k with rttvar := (3 * k.rttvar + dev) / 4, srtt := (7 * k.srtt + r) / 8 }
  else { k with rttKnown := true, srtt := r, rttvar := r / 2 }

/-- Items of lost frames go again, each frame's in a frame of its own, as far as the response window and the congestion window
let response octets leave (R103, R105). -/
def State.pumpResend (s : State) (c : Nat) : List (List Item) → State
  | [] => s.modConn c (fun k => { k with resend := [] })
  | items :: rest =>
    let k := s.conn c
    let n := sumOf Item.rspLen items
    if n = 0 ∨ k.inFlight + n ≤ min k.rspWin k.cwnd then
      if k.live then (s.wotSend c items).pumpResend c rest else s
    else s.modConn c (fun k => { k with resend := items :: rest })

/-- What a lost frame carried that goes again. -/
def Sent.again (f : Sent) : List (List Item) :=
  let l := f.items.filter Item.resent
  if l = [] then [] else [l]

/-- Frames declared lost are counted (R114). -/
def State.countLost (s : State) (lost : List Sent) : State := lost.foldl (fun s _ => s.bumpWot 8) s

/-- Frames are lost: what they carried goes again, then a fresh ACK and WINDOW (R105). -/
def State.resendLost (s : State) (c : Nat) (lost : List Sent) : State :=
  if lost = [] then s
  else
    let t := (s.countLost lost).pumpResend c ((s.conn c).resend ++ lost.flatMap Sent.again)
    let k := t.conn c
    t.wotSend c [k.ackItem t.clock.cycles, .window k.limit]

/-- An ACK covers a frame of the device with a packet number of `pn` or higher. -/
def ackAbove (largest : Nat) (map : BitVec 64) (sent pn : Nat) : Bool :=
  (decide (pn ≤ largest) && decide (largest < sent)) ||
  (upto 64).any (fun i => map.getLsbD i && decide (pn + i + 1 ≤ largest) && decide (largest - 1 - i < sent))

/-- An ACK item of the client (R105, R106); an acknowledged CLOSE ends the connection (R107). -/
def State.takeAck (s : State) (c delay largest : Nat) (map : BitVec 64) : State :=
  let k := s.conn c
  let acked := k.unacked.filter (fun f => ackCovers largest map f.pn)
  let top := acked.foldl (fun m f => max m f.pn) 0
  let lost := k.unacked.filter (fun f => !ackCovers largest map f.pn && ackAbove largest map k.pnTx (f.pn + 3))
  let k1 : Conn := { k with
    backoff := 0
    unacked := k.unacked.filter (fun f => !acked.contains f && !lost.contains f) }
  let k2 := match acked.find? (fun f => decide (f.pn = largest)) with
    | some f =>
      let r := s.clock.cycles - f.time
      k1.sample (if delay < r then r - delay else r)
    | none => k1
  let k3 : Conn := if lost = [] then k2 else { k2 with cwnd := max 16384 (k2.cwnd / 2), lossSince := true }
  let k4 : Conn := if acked ≠ [] ∧ k3.roundEnd ≤ top then
      { k3 with cwnd := if k3.lossSince then k3.cwnd else k3.cwnd + k3.maxFrame, lossSince := false, roundEnd := k3.pnTx }
    else k3
  let t := s.modConn c (fun _ => k4)
  if acked.any (fun f => f.items.any Item.isClose) then (t.countLost lost).endConn c
  else (t.resendLost c lost).pumpResend c ((t.resendLost c lost).conn c).resend

end Sys2Proof.Machine
end

