-- ==== Sys2Proof/Machine/Admission.lean ====
section
/-! DEFINITION. From the admission gate to a home engine (01, 04, 05): commit numbers (R54, R55), command records (R153,
R229, R230), steering (R150 to R152, R415), the request-data area (R154), DATA in the saggar (R32). -/

namespace Sys2Proof.Machine

/-! ## The sequencer -/

/-- The next commit number; the end of a new block of 2^32 is recorded in the saggar first (R55). -/
def State.nextCommit (s : State) : Nat × State :=
  let n := s.wot.lastCommit + 1
  let t : State := { s with wot := { s.wot with lastCommit := n, numbered := true } }
  if s.wot.blockEnd < n then
    let e := s.wot.blockEnd + 2 ^ 32
    (n, { t with wot := { t.wot with blockEnd := e }
                 dies := tabMapAll (fun _ => {}) (fun _ d => { d with commitEnd := max d.commitEnd e }) t.dies })
  else (n, t)

/-! ## The command record (R230) -/

/-- Octets 20 to 35 of an ABORT's record. -/
def abortRecord (m : Octets) (outcome target : Nat) : Octets := patch m 20 (beOctets 8 outcome ++ beOctets 8 target)

/-- A command passes stage 3 with its commit number and is steered, unless a binding of its slot is still to take effect. -/
def State.admitCmd (s : State) (commit conn gen tag : Nat) (msg : Octets) (outside : Bool) (outcome target : Nat)
    (origin : Option (BitVec 64 × Nat)) : State :=
  let op := msgOpcode msg
  let unbound := s.unboundAt op commit
  let h : HSlot := if unbound then {} else s.hslot op
  let m1 := s.record msg outside
  let m := if op = 0x13 ∧ origin = none then abortRecord m1 outcome target else m1
  let has := msgHasStem msg
  let ns := msgNsid msg
  let key := msgKey msg
  let stem := s.stemHashOf ns key
  let home := steerOf has stem conn
  let c0 : Cmd := {
    commit, conn, gen, tag, msg := m
    keyHash := if has then s.keyHashOf ns key else 0
    stemHash := if has then stem else 0
    hasStem := has, entry := h.entry, image := h.image, region := home.1, engine := home.1 * 32 + home.2
    phase := .queued, data := none, granted := 0, origin, rsp := [], holdAlloc := false, holdErase := [], fenced := false
    unbound, pkgRo := s.readOnly, nsRdonly := nsReadOnly (s.nsEntry ns) }
  let c : Cmd := { c0 with msg := c0.stampClass }
  let t : State := { s with
    eng := { s.eng with cmds := s.eng.cmds ++ [c] }, wot := { s.wot with outstanding := s.wot.outstanding + 1 } }
  let u := t.announce c
  if unbound then u else u.steer c

/-! ## GATE_LEAVE -/

/-- A Transom request that is executed before the sequencer resumes (R548): CODE 1, 2, a TREAD of FILTER, EV_REC or EV_SUPP,
a MODESET RESET. -/
def unnumbered (m : Octets) : Bool :=
  match beAt m 6 2 with
  | 0x0001 | 0x0002 => true
  | 0x0003 => decide (beAt m 20 1 = 3) || decide (beAt m 20 1 = 6) || decide (beAt m 20 1 = 7)
  | 0x0020 => decide (beAt m 16 1 = 0)
  | _ => false

/-- The mode and the sequencer let a message of the gate leave (Table 15-1, R548). -/
def State.gateOpen (s : State) (m : GateMsg) : Bool :=
  if m.mgmt then decide (s.mode.mode.mgmtOpen = 2) && (s.wot.resumed || unnumbered m.msg)
  else s.wot.resumed && (decide (s.mode.mode = .service) || decide (s.mode.mode = .degraded) || decide (s.mode.mode = .drain))

/-- A Transom request that may change what commands above it see: RWRITE, TWRITE, PRUN, MODESET (R67, R113). -/
def TReq.changes (r : TReq) : Bool := [0x0002, 0x0004, 0x0014, 0x0020].contains (headAt r.msg 6 2)

/-- A client command waits for the requests before it that may change what it sees (R67, R113, R548, log 105). -/
def State.reqHolds (s : State) : Bool := s.eng.treqs.any TReq.changes

/-- The message passes stage 2: its tag is outstanding, its octets are consumed, the next message follows. -/
def State.leaveGate (s : State) (m : GateMsg) : State :=
  let t : State := { s with wot := { s.wot with
    gate := s.wot.gate.filter (fun g => !(decide (g.conn = m.conn) && decide (g.gen = m.gen) && decide (g.pos = m.pos)))
    aborts := s.wot.aborts.filter (fun a => !(decide (a.conn = m.conn) && decide (a.gen = m.gen) && decide (a.pos = m.pos))) } }
  t.modConn m.conn (fun k => let j := k.consume (m.pos + m.msg.length)
    { j with tags := beAt m.msg 4 2 :: k.tags })

/-- GATE_LEAVE (R134): the first message, in the order in which they met R95, that may leave. -/
def execGateLeave (s : State) : Out :=
  outcome true (match s.wot.gate.find? (fun m => s.gateOpen m) with
    | none => s
    | some m =>
      let tag := beAt m.msg 4 2
      let rec_ := s.wot.aborts.find? (fun a => decide (a.conn = m.conn) && decide (a.gen = m.gen) && decide (a.pos = m.pos))
      let due := match rec_ with
        | some a => decide (a.outcome ≠ 3)
        | none => true
      let t := s.leaveGate m
      let u :=
        if m.mgmt then
          let r := if t.wot.resumed then t.nextCommit else (0, t)
          let q : TReq := { commit := r.1, conn := m.conn, gen := m.gen, tag, msg := m.msg }
          { r.2 with eng := { r.2.eng with treqs := r.2.eng.treqs ++ [q] }
                     wot := { r.2.wot with outstanding := r.2.wot.outstanding + 1 } }
        else
          let r := t.nextCommit
          let cr := t.cred (t.conn m.conn).cred
          let ns := msgNsid m.msg
          let outside := decide (ns < cr.nsLo) || decide (cr.nsHi < ns)
          let out := match rec_ with
            | some a => (a.outcome, if a.outcome = 2 then a.target else 0)
            | none => (0, 0)
          r.2.admitCmd r.1 m.conn m.gen tag m.msg outside out.1 out.2 none
      whenDo (due && (m.mgmt || !s.reqHolds) && decide (s.wot.outstanding < 1048576)) s (u.settleConn m.conn))

/-! ## Stage 4 waits -/

/-- Octets of the request-data area of store die d in use (R154). -/
def State.dataAreaUsed (s : State) (d : Nat) : Nat := sumOf (fun c => if c.die = d then c.granted else 0) s.eng.cmds

/-- REQDATA_GRANT (R154): the waiting command with the lowest commit number. -/
def execReqdataGrant (die : Nat) (s : State) : Out :=
  let waiting := sortBy (fun c => c.commit) (s.eng.cmds.filter (fun c => decide (c.die = die) && decide (c.phase = .waitGrant)))
  outcome (Wf.die die) (match waiting with
    | [] => s
    | c :: _ =>
      let n := c.msg.length - 512
      whenDo (decide (s.dataAreaUsed die + n ≤ 268435456)) s
        (s.modCmd c.commit (fun c => { c with granted := n, phase := .queued })))

/-- Both saggar copies of the command's DATA are in place; what waits for them goes on (R219). -/
def State.placedNow (s : State) (c : Cmd) : State :=
  match c.phase with
  | .running x => s.onWait x (fun v w => match w with
      | .saggar rd => s.wake x (v.setG rd 0)
      | .factory .saggar => s.resume x .saggar
      | _ => s)
  | .waitGrant | .queued | .holding | .responding | .forwarded => s

/-- SAGGAR_COPY_DONE (R32, R33): DATA of a DSAG command stands in the home part and its mirror, when the home part has room
(R28, R136), the region its holdup reserve (R348) and both stacks work (R29). -/
def execSaggarCopyDone (commit : Nat) (s : State) : Out :=
  outcome (Wf.commit commit) (match s.cmd? commit with
    | none => s
    | some c =>
      match c.data with
      | none => s
      | some p =>
        let d := s.die p.die
        let up := d.online && !d.stackLost && !(s.die ((p.die + 1) % 4)).stackLost
        let value := slice (msgData c.msg) 0 c.dataLen
        match d.extentRef (extentUnits value.length) with
        | none => s
        | some ref =>
          let x : Extent := { ref, owner := .command commit, nsid := c.nsid, commit, chunk0 := 0, value }
          let t := s.modDie p.die (fun d => d.addExtent x)
          let c' : Cmd := { c with data := some { p with ref := ref, home := true, mirror := true } }
          let u : State := { t.modCmd commit (fun _ => c') with mode := { t.mode with drained := false, drainAsked := false } }
          whenDo (up && !p.home && c.open_ && d.reserveWhole s.geo (c.region % 4)) s
            ((u.placedNow c').countPlaced value.length))

end Sys2Proof.Machine
end

