-- ==== Sys2Proof/Machine/HomePart.lean ====
section
/-! DEFINITION. The octets of a home part (11): control block, origin tail, effect log, value area (Tables 11-1 to 11-4, R330,
R337), the image chunks of a dump (R346, R348, R349), anchor records and roots (Tables 11-7, 11-8), and the journal and origin
chunks (R337, R339). `Die` keeps what these octets are made from. -/

namespace Sys2Proof.Machine

/-! ## The control block (Table 11-2) -/

def ImageAnchor.logEnd (a : ImageAnchor) : Nat := (a.logTail + sumOf (fun r => r.octets) a.records) % logRing

/-- The control block of a home part; offsets of the log count from the start of the part. Every record is in both copies whole, so
LOGMIRR is LOGHEAD (R332). -/
def ImageAnchor.control (a : ImageAnchor) : Octets :=
  let off (p : Nat) : Octets := leOctets 8 (0x20000 + p)
  let o := leOctets 4 0x53474752 ++ zeros 4 ++ leOctets 8 a.commitEnd ++ leOctets 8 a.seqEnd ++ leOctets 8 a.serialNext ++
    off a.logTail ++ off a.logEnd ++ off a.logEnd ++ leOctets 4 a.jnext
  o ++ leOctets 4 (crc32c o).toNat

/-! ## Effect records (Tables 11-3, 11-4) -/

/-- The 64 octets of a directory entry as applied: its extent is that of the VALUE item beside it; CHAIN, which no rule specifies,
is 0 in a record (DESIGN CHOICE, log 122). -/
def EffRec.entryOctets (r : EffRec) (e : DirEntry) : Octets :=
  let ref := r.items.findSome? (fun i => match i with
    | .value h ref _ => if h = e.handle then some ref else none
    | _ => none)
  leOctets 8 e.keyHash.toNat ++ leOctets 8 (e.length % 2 ^ 48 + e.nsid * 2 ^ 48 + e.state * 2 ^ 60) ++
  leOctets 8 e.version ++ leOctets 8 (e.first + bit01 ref.isSome * 2 ^ 32 + bit01 e.cached * 2 ^ 33) ++
  leOctets 8 (e.cacheRef + ref.getD 0 * 2 ^ 32) ++ leOctets 8 (e.handle.toNat + e.key.length * 2 ^ 32) ++
  leOctets 8 0 ++ leOctets 8 e.usermeta.toNat

/-- TYPE of an item. -/
def EffItem.type : EffItem → Nat
  | .dirent _ _ => 1
  | .dirfree _ => 2
  | .value _ _ _ => 3
  | .origin _ _ => 4
  | .selrow _ _ _ _ _ _ => 5
  | .runmove _ _ => 6
  | .tableNs _ _ | .tableHandler _ _ | .tableCred _ _ | .tableProg _ _ | .tableHkey _ => 7
  | .retire _ _ => 8

/-- Table, index and entry image of a TABLE item. -/
def tableItem (table index : Nat) (entry : Octets) : Octets := [BitVec.ofNat 8 table] ++ zeros 3 ++ leOctets 4 index ++ entry

/-- A handler-table entry (Table 5-3). -/
def entryWord (e : HEntry) : Nat :=
  bit01 e.valid + 2 * bit01 e.det + 4 * e.cls + 32 * bit01 e.dsag + e.budget * 2 ^ 8 + e.len * 2 ^ 32 +
  e.imageId.toNat * 2 ^ 64 + e.loads * 2 ^ 96

/-- A credential entry as it reads: PSK is WO (Table 3-4). -/
def credWord (c : Cred) : Nat := bit01 c.valid + 2 * bit01 c.mgmt + c.nsLo * 4 + c.nsHi * 2 ^ 14

/-- SAGGARREF of the extent of a bound image (R330). -/
def imageRef (extents : List Extent) (table slot : Nat) : Nat :=
  match extents.find? (fun x => decide (x.owner = .image table slot)) with
  | some x => x.ref
  | none => 0

/-- The body of an item after its head. Entry images are the words of Table 18-6, little-endian in a record; a program has its
BUDGET, IMAGEID and LEN (log 26). -/
def EffItem.body (r : EffRec) (extents : List Extent) : EffItem → Octets
  | .dirent _ e => r.entryOctets e
  | .dirfree h => leOctets 4 h.toNat
  | .value h ref len => leOctets 4 h.toNat ++ leOctets 4 ref ++ leOctets 8 len
  | .origin h n => leOctets 4 h.toNat ++ leOctets 4 n
  | .selrow i rm st pr h v => leOctets 4 i ++ rowCopyOctets (if v then packRow rm st pr h else 0)
  | .runmove h first => leOctets 4 h.toNat ++ leOctets 4 first
  | .tableNs i v => tableItem 0 i (leOctets 4 v.toNat)
  | .tableHandler i v => tableItem 1 i (leOctets 16 (entryWord v.entry) ++ leOctets 4 (imageRef extents 1 i))
  | .tableCred i v => tableItem 2 i (leOctets 40 (credWord v + v.psk.toNat * 2 ^ 64))
  | .tableProg i p => tableItem 3 i (leOctets 4 p.budget ++ leOctets 4 p.imageId.toNat ++ leOctets 4 p.words.length ++ zeros 4 ++
      leOctets 4 (imageRef extents 3 i))
  | .tableHkey k => tableItem 4 0 (leOctets 16 k.toNat)
  | .retire p b => leOctets 4 p.toNat ++ leOctets 4 b

/-- An effect record: its head, its items end to end, zeros to LEN; CRC over all of it with the CRC field as 0. -/
def EffRec.encode (r : EffRec) (extents : List Extent) : Octets :=
  let items := r.items.flatMap (fun i => leOctets 2 i.type ++ leOctets 2 i.octets ++ i.body r extents)
  let head := leOctets 4 0x45464652 ++ leOctets 4 r.octets ++ leOctets 8 r.commit ++ leOctets 8 r.floor ++
    leOctets 2 r.items.length ++ zeros 2
  let rest := fitTo (r.octets - 32) items
  head ++ leOctets 4 (crc32c (head ++ zeros 4 ++ rest)).toNat ++ rest

/-! ## The origin tail and the value area (R330, R337) -/

/-- Entries of the origin log: serial, handle, FLOOR. -/
def originOctets (l : List (Nat × W32 × Nat)) : Octets :=
  l.flatMap (fun o => leOctets 4 o.1 ++ leOctets 4 o.2.1.toNat ++ leOctets 8 o.2.2)

/-- The octets of an extent: 320 of its key record, then its value padded to 64 octets; an image has no key record. -/
def Extent.octets (x : Extent) (record : Octets) : Octets :=
  match x.owner with
  | .image _ _ => fitTo 65536 x.value
  | .object _ | .part _ | .command _ | .staged _ => fitTo 320 record ++ fitTo (ceilDiv x.value.length 64 * 64) x.value

/-! ## Home part and image chunks (Table 11-1, R346) -/

/-- The parts of a home part that a dump writes, as offsets with their octets; `record` gives the key record of an owner. A record that
reaches the end of the log's ring goes on at its start (DESIGN CHOICE, log 122). -/
def ImageAnchor.parts (a : ImageAnchor) (record : Owner → Octets) : List (Nat × Octets) :=
  let log := a.records.flatMap (fun r => r.encode a.extents)
  let first := logRing - a.logTail
  [(0, a.control), (0x10000, originOctets a.originTail)] ++
  (if log = [] then [] else [(0x20000 + a.logTail, log.take first)] ++ (if log.length ≤ first then [] else [(0x20000, log.drop first)])) ++
  (a.extents.filter (fun x => !x.fromBase)).map (fun x => (64 * x.ref, x.octets (record x.owner)))

/-- Octets that two intervals, given by start and length, share from the first one's start on. -/
def overlap (at_ n : Nat) (part : Nat × Octets) : Option (Nat × Octets) :=
  if part.1 < at_ + n ∧ at_ < part.1 + part.2.length then
    some (part.1 - at_, slice part.2 (at_ - part.1) (at_ + n - part.1))
  else none

/-- Image chunk i: home-part octets 65,536 × i on. -/
def imageChunk (parts : List (Nat × Octets)) (i : Nat) : Octets :=
  fitTo chunkSize (((parts.filterMap (overlap (chunkSize * i) chunkSize))).foldl
    (fun v w => fitTo (max v.length w.1) v |> fun v => v.take w.1 ++ w.2 ++ v.drop (w.1 + w.2.length)) [])

/-- The chunks that a dump writes, in ascending order: those that hold something of its content, chunk 0 and 1 always. -/
def ImageAnchor.chunks (a : ImageAnchor) : List Nat :=
  let span (off n : Nat) : List Nat := (upto ((off + n - 1) / chunkSize + 1 - off / chunkSize)).map (fun k => off / chunkSize + k)
  let logLen := sumOf (fun r => r.octets) a.records
  let first := min logLen (logRing - a.logTail)
  let log := (if logLen = 0 then [] else span (0x20000 + a.logTail) first) ++ (if logLen ≤ first then [] else span 0x20000 (logLen - first))
  let held := (a.extents.filter (fun x => !x.fromBase)).flatMap (fun x => span (64 * x.ref) (64 * x.units))
  sortBy id ([0, 1] ++ log ++ held).eraseDups

/-- An IMAGE slot of store die n's home part (Table 11-5). -/
def imageSlot (n i : Nat) (key : BitVec 512) : Slot := sysSlot 4 (n * 2 ^ 18 + i) key

/-- The image chunks of an anchor are programmed into a stream, chunk i in region i mod 4 (R346, R348, R349). -/
def Die.programImage (d : Die) (g : Geo) (st : Stream) (a : ImageAnchor) : Die :=
  a.chunks.foldl (fun d i => match d.append g (i % 4) st (imageSlot a.die i d.sysKey) with
    | some (d, _) => d
    | none => d) d

/-- The stripes that a dump has begun close with their parity; its superblocks take nothing more. -/
def Die.endImage (d : Die) (g : Geo) : Die :=
  (upto 4).foldl (fun d r => match (d.region r).image with
    | none => d
    | some k =>
      let d := match d.super k with
        | some x => if x.filled % 14 = 0 then d else d.endStripe g k (x.filled / 14)
        | none => d
      (d.modSuper k (fun x => { x with closed := true, closeTime := g.now })).modRegion r (fun x => x.closeStream k)) d

/-- The dump of store die n (Table 11-9 steps 5 and 6): image chunks in the holdup reserve, then the IMAGE anchor; the chunks are not
read back (R346). -/
def Die.dump (d : Die) (g : Geo) (n : Nat) : Die :=
  let a := d.dumpImage n false
  let t := ((d.programImage g .image a).endImage g).writeAnchor g
  { t with images := a :: t.images, dumped := true }

/-! ## Anchor records and roots (Tables 11-7, 11-8) -/

def anchorOctets (kind die epoch commitEnd seqEnd serialNext lastCommit nchunk seqStart jStart : Nat) (roots : List Nat) : Octets :=
  let o := leOctets 4 0x414E4348 ++ [BitVec.ofNat 8 kind, BitVec.ofNat 8 die] ++ zeros 2 ++ leOctets 8 epoch ++ leOctets 8 commitEnd ++
    leOctets 8 seqEnd ++ leOctets 8 serialNext ++ leOctets 8 lastCommit ++ leOctets 4 nchunk ++ leOctets 8 seqStart ++ leOctets 4 jStart ++
    fitTo 392 (roots.flatMap (leOctets 8))
  o ++ leOctets 4 (crc32c o).toNat

/-- The EPOCH anchor of an epoch; FORMAT's has KIND 4. -/
def Epoch.anchor (e : Epoch) (format : Bool) : Octets :=
  if format then anchorOctets 4 0 e.num e.commitEnd e.seqEnd e.serialNext 0 0 0 0 []
  else anchorOctets 1 0 e.num e.commitEnd e.seqEnd e.serialNext 0 0 e.seqStart e.jStart e.roots

/-- The IMAGE or PREDUMP anchor of an image. -/
def ImageAnchor.anchor (a : ImageAnchor) : Octets :=
  anchorOctets (if a.predump then 3 else 2) a.die a.epoch a.commitEnd a.seqEnd a.serialNext a.lastCommit a.chunks.length 0 0 []

/-- Pieces of a store die (Table 11-6). -/
def pieceCount : Nat := 394374

/-- The root of an epoch; `piece` gives the address of the newest copy of a piece and the epoch that wrote it. -/
def Epoch.root (e : Epoch) (piece : Nat → Nat × Nat) : Octets :=
  let head := leOctets 4 0x524F4F54 ++ leOctets 4 pieceCount ++ leOctets 8 e.num ++ leOctets 8 e.seqStart ++ leOctets 4 e.jStart
  let rest := zeros 32 ++ (upto pieceCount).flatMap (fun i => leOctets 8 ((piece i).1 % 2 ^ 36 + (piece i).2 % 2 ^ 28 * 2 ^ 36))
  head ++ leOctets 4 (crc32c (head ++ zeros 4 ++ rest)).toNat ++ rest

/-! ## System chunks (R337, R339) -/

/-- The key record that a die holds for an owner; none for an extent with no owner left. -/
def Die.ownerRecord (d : Die) (o : Owner) : Octets :=
  match d.ownerKey o with
  | some k => k.2.2
  | none => []

/-- The octets of a journal, image or origin chunk of a die, before its data area is padded; the others' are not held (log 22). -/
def Die.sysData (d : Die) (t : Slot) : Octets :=
  match t.chunk / 2 ^ 20 with
  | 1 => (match d.journal.find? (fun j => j.1 % 2 ^ 20 == t.chunk % 2 ^ 20) with
    | some j => j.2.flatMap (fun r => r.encode d.extents)
    | none => t.data)
  | 4 => (match d.images.find? (fun i => decide (i.die = t.chunk / 2 ^ 18 % 4)) with
    | some a => imageChunk (a.parts d.ownerRecord) (t.chunk % 4096)
    | none => t.data)
  | 5 => (match d.originLog.find? (fun o => o.1 % 2 ^ 20 == t.chunk % 2 ^ 20) with
    | some o => originOctets o.2
    | none => t.data)
  | _ => t.data

end Sys2Proof.Machine
end

