-- ==== Sys2Proof/Machine/Lease.lean ====
section
/-! DEFINITION. The mastership lease (R459 to R464): grants, renewals, ends, the gap, ELECT. -/

namespace Sys2Proof.Machine

/-- 200 µs in CLKT cycles: the term of a grant (R460). -/
def leaseTerm : Nat := 20000

/-- Store die d can request the lease (R461): out of reset, reachable, with its stack and both cascade connections. -/
def State.mayRequestLease (s : State) (d : Nat) : Bool :=
  let x := s.die d
  !x.inReset && !x.stackLost && x.cascade && decide (x.cause ≠ 1) && !decide (s.lease.holder = d ∧ s.lease.state = LeaseSt.held)

/-- The first requester in preference order from P (R461). -/
def firstPreferred (p : Nat) (reqs : List Nat) : Option Nat :=
  (upto 4).findSome? (fun i => if reqs.contains ((p + i) % 4) then some ((p + i) % 4) else none)

/-- A grant is sent, with its EPOCH, to every store die: one out of reset and reachable receives it (R462). -/
def State.sendGrant (s : State) : State :=
  (upto 4).foldl (fun s d =>
    if !(s.die d).inReset && decide ((s.die d).cause ≠ 1) then s.modDie d (fun x => { x with grant := s.lease.epoch }) else s) s

/-- A grant to store die d: EPOCH rises, MASTER_GRANT is recorded, NOMASTER clears (R459, R463). -/
def State.grantLease (s : State) (d : Nat) : State :=
  let ep := (s.lease.epoch + 1) % 2 ^ 24
  let t : State := { s with lease := { s.lease with
    holder := d, state := .held, epoch := ep, requests := s.lease.requests.filter (fun x => x != d)
    refuse := none, named := 255, termEnd := s.clock.cycles + leaseTerm } }
  (t.sendGrant.raise 0x0019 (srcOf 0x18 0) ep d 0 0).setCause 3 false

/-- The port die ends the lease; the gap begins (R460, R461). Cause 1 term, 2 sideband, 3 links, 4 MASTERMOVE. -/
def State.endLease (s : State) (cause : Nat) : State :=
  match s.lease.state with
  | .held =>
    let t := s.raise 0x0018 (srcOf 0x18 0) s.lease.epoch s.lease.holder cause 0
    { t with lease := { t.lease with holder := 7, state := .gap, refuse := none } }
  | .none | .gap => s

/-- LEASE_STAT (Table 15-11). -/
def leaseReg (l : Lease) : Nat :=
  l.holder + 8 * (match l.state with
    | .none => 0
    | .held => 1
    | .gap => 2) + 256 * l.epoch

/-- ELECT or an earlier mode (R463). -/
def Mode.beforeLinkup : Mode → Bool
  | .reset | .boot | .elect => true
  | .linkup | .mount | .service | .degraded | .drain | .reprogram | .format | .imports | .holdup => false

/-! ## The commands -/

/-- LEASE_REQUEST (R461, R463): a request with no lease and no gap after ELECT is granted at once. -/
def execLeaseRequest (die : Nat) (s : State) : Out :=
  let t : State := { s with lease := { s.lease with
    requests := if s.lease.requests.contains die then s.lease.requests else s.lease.requests ++ [die] } }
  let now := decide (s.lease.state = LeaseSt.none) && !s.mode.mode.beforeLinkup
  outcome (Wf.die die) (whenDo (s.mayRequestLease die && !s.inReset && !decide (s.mode.mode = Mode.holdup)) s
    (if now then t.grantLease die else t))

/-- ELECT_GRANT (R463): the first grant, by preference order and without a gap; ELECT ends. -/
def execElectGrant (s : State) : Out :=
  match firstPreferred s.otp.masterPref s.lease.requests with
  | some d => outcome true (whenDo (decide (s.mode.mode = Mode.elect) && decide (s.lease.state = LeaseSt.none)) s
      ((s.grantLease d).toMode .linkup))
  | none => outcome true s

/-- ELECT_TIMEOUT (R463): 5 ms with no holder. -/
def execElectTimeout (s : State) : Out :=
  outcome true (whenDo (decide (s.mode.mode = Mode.elect) && decide (s.lease.state = LeaseSt.none)) s (s.toMode .linkup))

/-- LEASE_RENEWAL (R460, R464): the term runs anew from the request; a renewal that MASTERMOVE refuses ends the lease. -/
def execLeaseRenewal (s : State) : Out :=
  let t := match s.lease.refuse with
    | some _ => s.endLease 4
    | none => State.sendGrant { s with lease := { s.lease with termEnd := s.clock.cycles + leaseTerm } }
  outcome true (whenDo (decide (s.lease.state = LeaseSt.held)) s t)

/-- LEASE_TERM_END (R460). -/
def execLeaseTermEnd (s : State) : Out :=
  outcome true (whenDo (decide (s.lease.state = LeaseSt.held)) s (s.endLease 1))

/-- LEASE_GAP_END (R461, R464): the named die when it is requesting, else the first in preference order; with no requester
the lease is NONE. -/
def execLeaseGapEnd (s : State) : Out :=
  let reqs := s.lease.requests.filter (fun d => s.mayRequestLease d)
  let pick := if reqs.contains s.lease.named then some s.lease.named else firstPreferred s.otp.masterPref reqs
  let t := match pick with
    | some d => s.grantLease d
    | none => { s with lease := { s.lease with state := .none, named := 255 } }
  outcome true (whenDo (decide (s.lease.state = LeaseSt.gap)) s t)

/-- NOMASTER_TIMEOUT (R463): no die has held the lease for more than 10 ms. -/
def execNomasterTimeout (s : State) : Out :=
  outcome true (whenDo (!decide (s.lease.state = LeaseSt.held) && !s.inReset) s (s.setCause 3 true))

end Sys2Proof.Machine
end

