-- ==== Sys2Proof/Machine/Lsa.lean ====
section
/-! DEFINITION. Our link-state advertisement and what follows a change of the database (R403, R406, R422). -/

namespace Sys2Proof.Machine

/-! ## The link-state database (R403, R406, R422) -/

/-- Our LSA's body (Table 13-2). -/
def State.lsaBody (s : State) : Octets :=
  let links := s.ownLinks
  beOctets 8 Config.uid.toNat ++ beOctets 8 s.fab.lsaSeq ++ beOctets 2 s.ownServe.toNat ++ [BitVec.ofNat 8 s.ownFlags] ++
  beOctets 2 links.length ++ links.flatMap (fun l => beOctets 8 l.1.toNat ++ [BitVec.ofNat 8 l.2])

/-- A message to every neighbour that is up, but for one. -/
def State.floodNbrs (s : State) (type : Nat) (body : Octets) (but : Option (BitVec 64)) : State :=
  (s.fab.nbrs.filter (fun n => n.isUp && decide (but ≠ some n.uid))).foldl (fun s n =>
    let q := s.takeOwnSeq
    q.2.rfpToNbr n type (rfpOctets s.fabKey type 1024 dstNeighbour Config.uid s.srcAddr q.1 s.fab.run body)) s

/-- An LSA of ours is originated and flooded (R403). -/
def State.originate (s : State) : State :=
  let t : State := { s with fab := { s.fab with lsaSeq := s.fab.lsaSeq + 1 } }
  t.floodNbrs 2 t.lsaBody none

/-- The members of the last committed generation (R406, R422): that in force, else the one of the fabric record. -/
def State.lastGen (s : State) : Option Gen := s.fab.gen.orElse (fun _ => s.fab.older.head?)

/-- More than half of the members of `g` are among `us`. -/
def majority (g : Gen) (us : List (BitVec 64)) : Bool :=
  decide (g.members.length < 2 * (g.members.filter (fun m => us.contains m.uid)).length)

/-- A package enters the minority as soon as its database shows it (R422). A standalone package never does (R410). -/
def State.settleMinority (s : State) : State :=
  match s.lastGen with
  | none => s
  | some g =>
    if s.fab.standalone || s.cause 4 || majority g s.reachable then s
    else
      let t := s.raise 0x0402 (srcOf 0x00 0) (g.num % 2 ^ 32) (g.num / 2 ^ 32) 1 0
      let t : State := { t with fab := { t.fab with minority := true, fillDone := false } }
      (t.setCause 4 true).settleReadOnly

/-- The database or our own part of it has changed: an LSA, the 20 ms anew, the minority rule. -/
def State.dbChanged (s : State) : State :=
  State.settleMinority { s with fab := { s.fab with dbAt := s.clock.cycles } }

/-- Something that our LSA states has changed (R403). -/
def State.ownChanged (s : State) : State := s.originate.dbChanged

/-- The database has stayed unchanged for 20 ms. -/
def State.dbStable (s : State) : Bool := decide (s.fab.dbAt + 2000000 ≤ s.clock.cycles)

/-- SERVE or a flag of ours has changed since `before`: an LSA states it (R403). -/
def State.tellLsa (t before : State) : State :=
  if before.ownServe = t.ownServe ∧ before.ownFlags = t.ownFlags then t else t.ownChanged

end Sys2Proof.Machine
end

