-- ==== Sys2Proof/Machine/Selection.lean ====
section
/-! DEFINITION. The selection engine at work (08): searches with their checks, the allocator's lists, the scrub, banks out of
service; and the capacity ledger's lists (R297). -/

namespace Sys2Proof.Machine

/-! ## Row errors (R255, R256) -/

/-- Bits in which two rows differ. -/
def rowDistance (a b : BitVec 186) : Nat := ((upto 186).filter (fun i => (a ^^^ b).getLsbD i)).length

/-- A row fails its check: its CHECK does not fit, as is certain with one to three bits changed (R255). -/
def rowFails (row copy : BitVec 186) : Bool :=
  decide (row ≠ copy) && (decide (rowDistance row copy ≤ 3) ||
    decide (rowCheckField row ≠ rowCheck (BitVec.ofNat 177 (row.toNat % 2 ^ 177))))

/-- Bit errors that have hit rows since the last search: index and the bits that changed. -/
def Sel.upset (t : Sel) (l : List (Nat × BitVec 192)) : Sel :=
  l.foldl (fun t u => if u.1 < 4194304 then t.setBits u.1 (t.row u.1 ^^^ u.2.setWidth 186) else t) t

/-- Rows that differ from their copies. -/
def Sel.damaged (t : Sel) : List Nat :=
  ((t.rows ++ t.copies).map (fun e => e.1)).eraseDups.filter (fun i => decide (t.row i ≠ t.copy i))

/-- A row rewritten from its copy, with the event and the bank's counter. -/
def State.repairRow (s : State) (i code p2 p3 : Nat) : State :=
  let b := bankOf i
  let t := s.modBank b (fun k => { k with
    rowchk := if code = 0x0300 then k.rowchk + 1 else k.rowchk
    falsehit := if code = 0x0301 then k.falsehit + 1 else k.falsehit
    scrubfix := if code = 0x0302 then k.scrubfix + 1 else k.scrubfix })
  State.raise { t with sel := t.sel.setBits i (t.sel.copy i) } code (srcOf 0x06 b) i 0 p2 p3

/-- One search slot in each of the sixteen banks (R263), under the next search number (R260, R262). -/
def State.countSearch (s : State) : State :=
  let s : State := { s with sel := { s.sel with search := (s.sel.search + 1) % 4096 } }
  (upto 16).foldl (fun s b => s.modBank b (fun k => { k with searches := (k.searches + 1) % 2 ^ 64 })) s

/-- The checks of every row at a search: failing rows are rewritten, and the search takes one more slot in every bank. -/
def State.rowChecks (s : State) : State :=
  match s.sel.damaged.filter (fun i => rowFails (s.sel.row i) (s.sel.copy i)) with
  | [] => s
  | is => is.foldl (fun s i => s.repairRow i 0x0300 0 0) s.countSearch

/-- The upsets of a search: a second error of a row is found after its repair, which is a bank fault (Table 16-1). -/
def State.takeUpsets (s : State) (l : List (Nat × BitVec 192)) : State :=
  let first := l.foldl (fun acc u => if acc.any (fun v => v.1 == u.1) then acc else acc ++ [u]) []
  let again := l.filter (fun u => !first.contains u)
  let t := State.rowChecks { s with sel := s.sel.upset first }
  if again = [] then t
  else
    let u : State := { t with sel := t.sel.upset again }
    let bad := u.sel.damaged.filter (fun i => rowFails (u.sel.row i) (u.sel.copy i))
    (bad.map bankOf).eraseDups.foldl (fun s b => s.bankFault b) (u.rowChecks)

/-! ## Searches (R244, R256, R257) -/

/-- The best match of the invocation's view after a position, verified, with the number of matches seen; each false hit is
rewritten and the search repeated. -/
def State.searchFrom (s : State) (v : Inv) (stem caps : W64) (after : Option (Nat × Nat)) :
    Nat → State × Option (Nat × Nat × W32) × Nat
  | 0 => (s, none, 0)
  | k + 1 =>
    let q := (s.viewOf v).sel
    let ms := (q.matching stem caps).filter (fun m => match after with
      | some p => stepsAfter m.1 m.2.1 p.1 p.2
      | none => true)
    match ms with
    | [] => (s.countSearch, none, 0)
    | m :: _ =>
      if q.row m.2.1 = q.copy m.2.1 then (s.countSearch, some m, ms.length)
      else (s.countSearch.repairRow m.2.1 0x0301 (stem.toNat % 2 ^ 32) (stem.toNat / 2 ^ 32)).searchFrom v stem caps after k

def State.search (s : State) (v : Inv) (stem caps : W64) (after : Option (Nat × Nat)) :
    State × Option (Nat × Nat × W32) × Nat := s.searchFrom v stem caps after (s.sel.damaged.length + 1)

/-- The pair's slot of the search log after a position is returned (R247). -/
def Inv.logReturn (v : Inv) (stem caps : W64) (m : Option (Nat × Nat × W32)) (multi : Bool) : Inv :=
  let k := v.takeLog stem caps
  let old := match v.logSlot stem caps with
    | some _ => tabGet (fun _ => logEmpty) v.log k
    | none => logEmpty
  let clock := v.logClock + 1
  let base : LogSlot := { old with stem := stem, caps := caps, multi := multi, used := clock }
  let new : LogSlot := match m with
    | none => base
    | some (p, i, _) =>
      if old.any && !stepsAfter p i old.frontPrio old.frontIndex then base
      else { base with any := true, frontPrio := p, frontIndex := i }
  { v with log := tabSet (fun _ => logEmpty) v.log k new, logClock := clock }

/-- The match record of what was found, and g[rd]. -/
def Inv.matched (v : Inv) (rd dst : Nat) (k : Nat) (m : Option (Nat × Nat × W32)) (multi : Bool) : Inv :=
  match m with
  | none => (v.setScr dst (matchRecord noHandle 0 multi 0)).setG rd 0
  | some (p, i, h) => (v.setScr dst (matchRecord h p multi (cursorOf p i k))).setG rd 1

/-- SEL's answer. -/
def State.selAnswer (s : State) (x : CtxId) (v : Inv) (rd : Nat) (stem caps : W64) (dst : Nat) : State :=
  let r := s.search v stem caps none
  match r.2.1 with
  | none => r.1.wake x ((v.logReturn stem caps none false).matched rd dst 0 none false)
  | some m =>
    let follow := if 2 ≤ r.2.2 then r.1.search v stem caps (some (m.1, m.2.1)) else (r.1, none, 0)
    let multi := follow.2.1.isSome
    let k := v.takeLog stem caps
    follow.1.wake x ((v.logReturn stem caps (some m) multi).matched rd dst k (some m) multi)

/-- SELNEXT's answer: MULTI keeps its value from SEL (R246). -/
def State.selNextAnswer (s : State) (x : CtxId) (v : Inv) (rd : Nat) (stem caps cursor : W64) (multi : Bool) (dst : Nat) :
    State :=
  let kept := match v.logSlot stem caps with
    | some k => (tabGet (fun _ => logEmpty) v.log k).multi
    | none => multi
  if cursor = 0 then s.wake x ((v.logReturn stem caps none kept).matched rd dst 0 none kept)
  else
    let r := s.search v stem caps (some (bitsOf cursor.toNat 0 16, bitsOf cursor.toNat 16 22))
    let k := v.takeLog stem caps
    r.1.wake x ((v.logReturn stem caps r.2.1 kept).matched rd dst k r.2.1 kept)

/-- Searches of a GETSEL over verified matches: its SEL, the follow-on search when two entries match (R257), and one SELNEXT
for each further match that it looks at; confirmed matches end them. -/
def State.getselSearches (s : State) (c : Cmd) : Nat → List (Nat × Nat × W32) → Nat
  | 0, _ => 0
  | _ + 1, [] => 1
  | n + 1, m :: rest =>
    1 + (match s.confirm c m.2.2 with
      | .error _ => 0
      | .ok none => s.getselSearches c (n + 1) rest
      | .ok (some _) => s.getselSearches c n rest)

/-- The searches of a GETSEL (R123): each match that it looks at is verified, and a false hit is rewritten and the search
repeated (R256); the second match is looked at by the follow-on search. -/
def State.verifyAll (s : State) (c : Cmd) : Nat → State
  | 0 => s
  | k + 1 =>
    let stem := c.stemHash
    let ms := s.sel.matching stem (w64 (msgP0 c.msg))
    let n := s.getselSearches c (msgP3 c.msg % 65536 + 2) ms
    let total := n + bit01 (decide (2 ≤ ms.length))
    match (ms.take (max 2 n)).find? (fun m => decide (s.sel.row m.2.1 ≠ s.sel.copy m.2.1)) with
    | none => (upto total).foldl (fun s _ => s.countSearch) s
    | some m =>
      (s.countSearch.repairRow m.2.1 0x0301 (stem.toNat % 2 ^ 32) (stem.toNat / 2 ^ 32)).verifyAll c k

/-- SEL_SEARCH_RESULT (R261): the search that context x waits for is resolved. -/
def execSelSearchResult (x : CtxId) (upsets : List (Nat × BitVec 192)) (s : State) : Out :=
  outcome (Wf.ctxId x) (s.onWait x (fun v0 w0 =>
    let due : Bool := match w0 with
      | .sel _ _ _ _ | .selNext _ _ _ _ _ _ | .factory .search => true
      | _ => false
    whenDo (due && s.searchReady) s
      (let t := (s.takeUpsets upsets).tellLsa s
       if t.searchReady then t.onWait x (fun v w => match w with
         | .sel rd stem caps dst => t.selAnswer x v rd stem caps dst
         | .selNext rd stem caps cursor multi dst => t.selNextAnswer x v rd stem caps cursor multi dst
         | .factory .search => t.cmdOf v0 (fun c =>
             ((t.verifyAll c (t.sel.damaged.length + 1)).modInv x (fun v => { v with searched := true })).resume x .search)
         | _ => t)
       else t)))

/-! ## The allocator and the ledger (R249 to R254, R297) -/

/-- The banks that a change list steps. -/
def SelChange.banks (q : Sel) : SelChange → List Nat
  | .write i _ _ _ _ | .remove i => [bankOf i]
  | .removeHandle h => (q.handleRows h).map (fun e => bankOf e.1)
  | .put rm st _ h => ((q.rowFor rm st h).map bankOf).toList
  | .drop rm st h => ((q.same rm st h).map bankOf).toList

/-- The handle searches of a list: a slot in every bank for each, after the checks of every row (R252, R255). -/
def State.handleSearches (s : State) (changes : List SelChange) : State :=
  (changes.filter SelChange.searches).foldl (fun s _ => s.rowChecks.countSearch) s

/-- The banks of a list are free: those of its rows, and all sixteen where it searches by handle (R252, R264). -/
def State.banksOpen (s : State) (changes : List SelChange) : Bool :=
  let banks := if changes.any SelChange.searches then upto 16 else changes.flatMap (SelChange.banks s.sel)
  banks.all (fun b => !s.shutOf (bankArb b))

/-- ALLOC_APPLY (R249 to R254): the list of the next commit number is applied, the three steps of each change at once (log 119); its
command may respond (R251). It waits while
no die holds the lease, and while the effect log of a die that holds its rows is full (R334, log 26). -/
def execAllocApply (s : State) : Out :=
  outcome true (match s.sel.stream with
    | (n, some changes) :: rest =>
      let free := s.sel.reserved.all (fun e => decide (n ≤ e.2)) && s.allocRuns && s.banksOpen changes
      let u := s.handleSearches changes
      let room := (changes.flatMap (SelChange.banks u.sel)).all (fun b => !(u.die (b / 4)).logFull)
      let t := u.logRows n (listItems changes u.sel)
      let q := changes.foldl (fun q c => q.change c) u.sel
      let t : State := { t with sel := { q with stream := rest, reserved := q.reserved.filter (fun e => e.2 != n) } }
      whenDo (free && room) s ((t.modCmd n (fun c => { c with holdAlloc := false })).settleCmd n)
    | _ => s)

/-- A net change added to a count. -/
def addInt (n : Nat) (d : Int) : Nat := ((n : Int) + d).toNat

/-- The ledger with one command's net changes. -/
def Ledger.add (l : Ledger) (d : Delta) : Ledger :=
  { l with
    lcount := tabMod (fun _ => 0) l.lcount d.region (fun n => addInt n d.chunks)
    slots := addInt l.slots d.slots
    puts := addInt l.puts d.puts }

/-- LEDGER_APPLY (R297): the changes of the next commit number; a region that passes its limit is at end-of-life (R300). -/
def execLedgerApply (die : Nat) (s : State) : Out :=
  outcome (Wf.die die) (
    let l := (s.die die).ledger
    match l.stream with
    | (_, some deltas) :: rest =>
      (s.modDie die (fun d => { d with ledger := deltas.foldl (fun l d => l.add d) { l with stream := rest } })).settleLedger die
    | _ => s)

/-! ## The scrub and banks out of service (R258, R265, R266) -/

/-- SEL_SCRUB (R258): the row that the scrub has reached is compared with its copy; an uncorrectable error of that copy is
among `copyUpsets`. -/
def execSelScrub (bank : Nat) (upsets copyUpsets : List (Nat × BitVec 192)) (s : State) : Out :=
  let t : State := { s with sel := s.sel.upset upsets }
  let i := bank * rowsPerBank + (t.bank bank).scrub
  let row := t.sel.row i
  let copy := t.sel.copy i
  let copyBad := copyUpsets.any (fun u => decide (u.1 = i) && decide (u.2 ≠ 0))
  let fixed :=
    if copyBad then
      if rowFails row copy then State.raise { t with sel := t.sel.setRow i copy } 0x0304 (srcOf 0x06 bank) i 0 0 0
      else State.raise ({ t with sel := t.sel.setRow i row } |>.modBank bank (fun k => { k with copyfix := k.copyfix + 1 }))
        0x0303 (srcOf 0x06 bank) i 0 0 0
    else if row ≠ copy then t.repairRow i 0x0302 0 0
    else t
  outcome (Wf.bank bank) (whenDo ((s.bank bank).inService && !s.shutOf (bankArb bank) && !s.inReset) s
    (fixed.modBank bank (fun k => { k with scrub := (k.scrub + 1) % rowsPerBank })))

/-- SEL_RESTORED (R266): every row of a reset bank is reloaded from its copy, or from the media record that equals it. -/
def execSelRestored (bank : Nat) (s : State) : Out :=
  let inBank := s.sel.damaged.filter (fun i => decide (bankOf i = bank))
  let q := inBank.foldl (fun q i => q.setBits i (q.copy i)) s.sel
  let t : State := { s with sel := q }
  outcome (Wf.bank bank) (whenDo (s.bank bank).reloading s
    (((t.modBank bank (fun k => { k with reloading := false, inService := true })).unmaskUnit (bankPlace bank)).settleSel.tellLsa s))

/-- CASCADE_CONNECTION_LOST (R265): the die leaves the cascade with its four banks. A lease does not end by it (R460). -/
def execCascadeConnectionLost (die : Nat) (s : State) : Out :=
  let t := s.modDie die (fun d => { d with cascade := false })
  outcome (Wf.die die) (whenDo ((s.die die).cascade && !s.inReset) s ((t.selIncomplete 2 (15 * 2 ^ (4 * die))).tellLsa s))

end Sys2Proof.Machine
end

