-- ==== Sys2Proof/Machine/RingTake.lean ====
section
/-! DEFINITION. The classifier's cycle (R379) and what stands behind it: the PTP receive queue (R393), RFP, and the
WOT terminator's checks of a frame (R77, R78, R90 to R92). -/

namespace Sys2Proof.Machine

/-- The path that a client frame sets (R76, R382). -/
def pathOf (s : State) (mac : Nat) (h : EthHead) (i : IpHead) : Path :=
  { mac, ip := i.src, port := beAt i.l4 0 2, pip := i.dst, pport := beAt i.l4 2 2, eth := BitVec.ofNat 48 h.src
    vlan := h.tag.map (fun t => t.2), prio := rxPrio (s.mac mac).live h (some i), dscp := i.dscp }

/-- A header or length fault that needs no connection (R77, R78). -/
def wotHeadBad (o : Octets) : Bool :=
  let type := beAt o 0 1 % 16
  decide (o.length < 29) || decide (9000 < o.length) || decide (beAt o 0 1 / 16 ≠ 1) || !(decide (type = 1) || decide (type = 3)) ||
  decide (beAt o 1 1 ≠ 0) || decide (beAt o 10 2 ≠ 0) || (decide (type = 1) && decide (o.length ≠ 56))

/-- The tag of a client DATA frame holds (R85). -/
def Conn.tagOk (k : Conn) (c : Nat) (o : Octets) : Bool :=
  let n := o.length - 16
  decide (gcmTag k.kcd (wotNonce c 0 (beAt o 4 6)) (o.take n) = o.drop n)

/-- A DATA frame that verifies and whose PN is new: the path, the move to OPEN, the check of every item, the
acknowledgement owed (R76, R88, R91, R104). -/
def State.dataAccepted (s : State) (c : Nat) (path : Path) (o : Octets) : State :=
  let k := s.conn c
  let pn := beAt o 4 6
  let top := k.pns.foldl max 0
  let newest := decide (top < pn)
  let t := s.modConn c (fun k => { k with
    pns := sortBy (fun n => 2 ^ 48 - n) ((pn :: k.pns).filter (fun n => decide (max top pn < n + 4096)))
    path := if newest then some path else k.path
    lastRx := if newest then s.clock.cycles else k.lastRx
    state := if k.state = .opening then .open else k.state })
  let t := if k.state = .opening then t.bumpWot 4 else t
  let body := (o.take (o.length - 16)).drop 12
  match clientItems body.length body with
  | none => t.resetConn c 1 0
  | some items =>
    let u : State := { t with wot := { t.wot with term := t.wot.term ++ items.map (fun i => TermItem.item c k.gen i) } }
    if items.any Item.needsAck then
      let v := u.modConn c (fun k => { k with ackOwed := k.ackOwed + 1 })
      if 2 ≤ (v.conn c).ackOwed then v.sendAck c else v
    else u

/-- A DATA frame at stage 2 of Table 1-5. -/
def State.dataFrame (s : State) (path : Path) (o : Octets) : State :=
  let c := beAt o 2 2
  let k := s.conn c
  let pn := beAt o 4 6
  match k.state with
  | .free => s.bumpWot 2
  | .quiet => s.bumpWot 2
  | .opening | .open | .closing =>
    if k.maxFrame < o.length then s.bumpWot 1
    else if k.tagOk c o = false then s.bumpWot 2
    else if pn = 0 ∨ k.pns.contains pn ∨ pn + 4096 ≤ k.pns.foldl max 0 then s.bumpWot 3
    else s.dataAccepted c path o

/-- A frame reaches the WOT terminator. -/
def State.wotReceive (s : State) (path : Path) (o : Octets) : State :=
  if wotHeadBad o then s.bumpWot 1
  else if beAt o 0 1 % 16 = 1 then { s with wot := { s.wot with term := s.wot.term ++ [.init path o] } }
  else s.dataFrame path o

/-- The next ring of the rotation: MACs ascending after the one served last, the highest-numbered ring with a frame. -/
def State.nextRing (s : State) : Option (Nat × Nat) :=
  (upto 128).findSome? (fun i =>
    let m := (s.net.lastMac + 1 + i) % 128
    if s.macPresent m then
      ((upto 8).reverse.find? (fun p => decide ((s.mac m).ring p ≠ []))).map (fun p => (m, p))
    else none)

/-- A frame goes to its destination of Table 12-8. A MAC with FABEN 0 carries no RFP, so a datagram to the RFP port ends
there (R397). -/
def State.deliver (s : State) (m : Nat) (f : RxFrame) : State :=
  let h := parseEth (f.octets.take (f.octets.length - 4))
  let ip := parseIp h
  match s.rxClass m h ip, ip with
  | .ptp, _ =>
    if 64 ≤ s.net.ptpQueue.length then s.bumpMac m 16 1
    else { s with net := { s.net with ptpQueue := s.net.ptpQueue ++ [(m, f)] } }
  | .fabric, some i =>
    (match i.src with
    | .v6 a => if fabEn (s.mac m).live then s.rfpReceive m (BitVec.ofNat 48 h.src) a (i.l4.drop 8) else s
    | .v4 _ => s)
  | .wot, some i => s.wotReceive (pathOf s m h i) (i.l4.drop 8)
  | _, _ => s

/-- RING_TAKE (R379): the frame's buffers go back. -/
def execRingTake (s : State) : Out :=
  outcome true (match s.nextRing with
    | none => s
    | some (m, p) =>
      match (s.mac m).ring p with
      | [] => s
      | f :: rest =>
        let t := s.modMac m (fun x => { x with rings := tabSet (fun _ => []) x.rings p rest })
        (State.settleFlow { t with net := { t.net with lastMac := m } }).deliver m f)

end Sys2Proof.Machine
end

