-- ==== Sys2Proof/Machine/WotRows.lean ====
section
/-! DEFINITION. The commands of the WOT terminator (03, 04): each item of a verified frame, INIT, the timers of a connection,
limits, responses, ABORT. A row that acts on an item acts on the front of the terminator's queue. -/

namespace Sys2Proof.Machine

/-! ## The front of the terminator's queue -/

/-- The front of the terminator's queue, taken. -/
def State.popTerm (s : State) : State := { s with wot := { s.wot with term := s.wot.term.drop 1 } }

/-- `act` on the front item of a live connection when `want` admits it. -/
def State.onItem (s : State) (act : Nat → Conn → Item → Option (State → State)) : State :=
  match s.wot.term with
  | .item c gen i :: _ =>
    let k := s.conn c
    (match act c k i with
    | none => s
    | some f => if decide (k.gen = gen) && k.live then f s.popTerm else s.popTerm)
  | .init _ _ :: _ => s
  | [] => s

/-- PAD (R91): ignored. -/
def execPad (s : State) : Out :=
  outcome true (s.onItem (fun _ _ i => match i with
    | .pad => some id
    | _ => none))

/-- REQ (R93, R99, R107): octets at or beyond the limit or FINAL reset the connection; the others join the stream. -/
def State.takeReq (s : State) (c off : Nat) (data : Octets) : State :=
  let k := s.conn c
  let stop := match k.final with
    | some f => min f k.limit
    | none => k.limit
  if stop < off + data.length then s.resetConn c 3 (max off stop)
  else ((s.modConn c (fun k => k.place off data)).noteAborts c).settleConn c

def execReq (s : State) : Out :=
  outcome true (s.onItem (fun c _ i => match i with
    | .req off data => some (fun s => s.takeReq c off data)
    | _ => none))

/-- ACK (R105, R106). -/
def execAck (s : State) : Out :=
  outcome true (s.onItem (fun c _ i => match i with
    | .ack d l m => some (fun s => s.takeAck c d l m)
    | _ => none))

/-- WINDOW (R103): the response window never falls, and counts no more than 16,777,216. -/
def execWindow (s : State) : Out :=
  outcome true (s.onItem (fun c _ i => match i with
    | .window v => some (fun s => 
        let t := s.modConn c (fun k => { k with rspWin := max k.rspWin (min v 16777216) })
        t.pumpResend c (t.conn c).resend)
    | _ => none))

/-- PING (R104): its acknowledgement is owed since the frame came. -/
def execPing (s : State) : Out :=
  outcome true (s.onItem (fun _ _ i => match i with
    | .ping => some id
    | _ => none))

/-- CLOSE (R107). -/
def State.takeClose (s : State) (c final : Nat) : State :=
  let k := s.conn c
  match k.final with
  | some f => if f = final then s else s.resetConn c 1 0
  | none =>
    if final < k.high then
      let beyond := (k.segs.filter (fun g => decide (final < g.1 + g.2.length))).map (fun g => max g.1 final)
      s.resetConn c 3 (if final < k.consumed then final else beyond.foldl min k.high)
    else (s.modConn c (fun k => { k with final := some final, state := .closing })).settleConn c

def execClose (s : State) : Out :=
  outcome true (s.onItem (fun c _ i => match i with
    | .close f => some (fun s => s.takeClose c f)
    | _ => none))

/-- RESET (R107): the connection goes to QUIET at once. -/
def execReset (s : State) : Out :=
  outcome true (s.onItem (fun c _ i => match i with
    | .reset _ _ => some (fun s => s.endConn c)
    | _ => none))

/-! ## INIT (R86 to R89) -/

/-- The tag of an ACCEPT or REFUSE (R84). -/
def replyTag (kh initFrame reply : Octets) : Octets := (hmac256 kh (initFrame ++ reply)).take 16

/-- ACCEPT with the connection's current limit, from the INIT and ND that `accept` keeps (R87, R100). -/
def State.sendAccept (s : State) (c : Nat) : State :=
  let k := s.conn c
  match k.path with
  | none => s
  | some p =>
    let o := wotHead 2 c 0 ++ beOctets 2 k.maxFrame ++ beOctets 2 k.idle ++ k.accept.drop 56 ++ beOctets 8 k.limit
    s.wotEmit p (o ++ replyTag (handshakeKey (s.cred k.cred).psk) (k.accept.take 56) o)

/-- REFUSE, counted. -/
def State.sendRefuse (s : State) (p : Path) (kh f : Octets) (reason : Nat) : State :=
  let o := wotHead 4 0 0 ++ [BitVec.ofNat 8 reason] ++ zeros 3 ++ slice f 16 16
  (s.wotEmit p (o ++ replyTag kh f o)).bumpWot 5

/-- The fields of an INIT are in range (R86). -/
def initOk (f : Octets) : Bool :=
  decide (beAt f 2 8 = 0) && decide (beAt f 12 2 < 4096) && decide (1200 ≤ beAt f 14 2) && decide (beAt f 14 2 ≤ 9000) &&
  decide (65536 ≤ beAt f 32 8)

/-- A connection in use. -/
def Conn.used (k : Conn) : Bool := !decide (k.state = .free)

/-- The lowest free connection number (R89). -/
def State.freeConn (s : State) : Option Nat := leastBelow 65536 (fun c => !(s.conn c).used)

/-- Management connections open, OPENING counted (R111). -/
def State.mgmtConns (s : State) : Nat :=
  (s.wot.conns.filter (fun e => e.2.mgmt && (decide (e.2.state = .opening) || e.2.live))).length

/-- The limit that an ACCEPT carries (R100). -/
def firstLimit (pool : Nat) : Nat := if 65536 ≤ pool then 65536 else if pool < 4096 then 512 else pool / 4096 * 4096

/-- An INIT that verifies: a copy of an ACCEPT, a REFUSE, or a new connection (R86, R87). Where several conditions of a REFUSE hold,
REASON is the first of FULL, MODE, CLASSLIMIT, MEMORY (DESIGN CHOICE, log 111). -/
def State.takeInit (s : State) (p : Path) (f : Octets) : State :=
  let n := beAt f 12 2
  let cr := s.cred n
  let kh := handshakeKey cr.psk
  let nc := slice f 16 16
  if !initOk f || !cr.valid || decide ((hmac256 kh (f.take 40)).take 16 ≠ f.drop 40) then s.bumpWot 2
  else
    match s.wot.conns.find? (fun e => decide (e.2.cred = n) && decide (e.2.nc = nc) &&
        (decide (e.2.state = .opening) || e.2.live)) with
    | some e => if e.2.state = .opening then s.sendAccept e.1 else s
    | none =>
      let adm := if cr.mgmt then s.mode.mode.mgmtOpen else s.mode.mode.clientOpen
      let pool := s.poolFree
      match s.freeConn with
      | none => s.sendRefuse p kh f 1
      | some c =>
        if adm ≠ 2 then s.sendRefuse p kh f 2
        else if cr.mgmt ∧ 16 ≤ s.mgmtConns then s.sendRefuse p kh f 3
        else if pool < 512 then s.sendRefuse p kh f 4
        else
          let r := s.random 16
          let k : Conn := {
            state := .opening, gen := (s.conn c).gen, cred := n, mgmt := cr.mgmt, path := some p
            kcd := sessionKey cr.psk nc r.1 "wot c2d" c, kdc := sessionKey cr.psk nc r.1 "wot d2c" c, nc := nc
            accept := f ++ r.1, maxFrame := beAt f 14 2, idle := field s.wot.cfg 16 12
            rspWin := min (beAt f 32 8) 16777216, limit := firstLimit pool }
          (r.2.modConn c (fun _ => k)).sendAccept c

/-- INIT (R86). -/
def execInit (s : State) : Out :=
  outcome true (match s.wot.term with
    | .init p f :: _ => s.popTerm.takeInit p f
    | .item _ _ _ :: _ => s
    | [] => s)

/-! ## Timers of a connection -/

/-- ACK_TIMER (R104). -/
def execAckTimer (conn : Nat) (s : State) : Out :=
  outcome (Wf.conn conn) (whenDo ((s.conn conn).live && decide ((s.conn conn).ackOwed ≠ 0)) s (s.sendAck conn))

/-- RETX_TIMEOUT (R105, R106): every unacknowledged frame is lost; after 10 expiries in a row the connection is. -/
def execRetxTimeout (conn : Nat) (s : State) : Out :=
  let k := s.conn conn
  let t := if 10 ≤ k.backoff + 1 then ((s.countLost k.unacked).endConn conn).bumpWot 7
    else (s.modConn conn (fun k => { k with
      backoff := k.backoff + 1, cwnd := 16384, lossSince := true, unacked := [] })).resendLost conn k.unacked
  outcome (Wf.conn conn) (whenDo (k.live && decide (k.unacked ≠ [])) s t)

/-- IDLE_TIMEOUT (R108). -/
def execIdleTimeout (conn : Nat) (s : State) : Out :=
  outcome (Wf.conn conn) (whenDo (s.conn conn).live s ((s.endConn conn).bumpWot 7))

/-- OPENING_TIMEOUT (R88): freed with no frame sent. -/
def execOpeningTimeout (conn : Nat) (s : State) : Out :=
  outcome (Wf.conn conn) (whenDo (decide ((s.conn conn).state = .opening)) s
    (s.modConn conn (fun k => { gen := k.gen + 1 })))

/-- QUIET_END (R89). -/
def execQuietEnd (conn : Nat) (s : State) : Out :=
  outcome (Wf.conn conn) (whenDo (decide ((s.conn conn).state = .quiet)) s
    (s.modConn conn (fun k => { gen := k.gen })))

/-! ## Limits (R99, R100) -/

/-- The limit falls inside a partly received message at stream position `pos` or after it (R100). -/
def Conn.limitCuts (k : Conn) : Nat → Nat → Bool
  | 0, _ => false
  | fuel + 1, pos =>
    if (k.stream pos 1).isNone then false
    else match k.stream pos 4 with
      | none => true
      | some h =>
        let n := beNat h
        decide (k.limit < pos + n) || (decide (8 ≤ n) && k.limitCuts fuel (pos + n))

def Conn.limitInside (k : Conn) : Bool := k.limitCuts ((k.high - k.consumed) / 8 + 1) k.consumed

/-- The connection that is granted the next raise. -/
def State.dueRaise (s : State) : Option Nat :=
  let due := (s.wot.conns.filter (fun e => (e.2.live || decide (e.2.state = .opening)) && decide (e.2.limit - e.2.high < 32768))).map
    (fun e => e.1)
  match due.find? (fun c => (s.conn c).limitInside) with
  | some c => some c
  | none => match due.find? (fun c => decide (s.wot.lastRaise < c)) with
    | some c => some c
    | none => due.head?

/-- A WINDOW item tells the client of a raise, in OPENING too (R99, log 49). -/
def State.sendWindow (s : State) (c : Nat) : State :=
  let w : List Item := [.window (s.conn c).limit]
  if (s.conn c).state = .opening then s.wotData c w else s.wotSend c w

/-- LIMIT_RAISE (R100). -/
def execLimitRaise (s : State) : Out :=
  outcome true (match s.dueRaise with
    | none => s
    | some c =>
      let pool := s.poolFree
      let add := min 65536 (pool / 4096 * 4096)
      let t := s.modConn c (fun k => { k with limit := k.limit + add })
      let u : State := { t with wot := { t.wot with lastRaise := c } }
      whenDo (decide (4096 ≤ pool)) s (u.sendWindow c))

/-! ## Responses (R101 to R103, R171) -/

/-- A response of the connection that may send octets now: the ABORT rule of R145 holds others back. -/
def State.mayRespond (s : State) (c : Nat) (k : Conn) (r : Rsp) : Bool :=
  match r.after with
  | none => true
  | some t =>
    !k.rsps.any (fun q => decide (q.tag = t) && decide (q ≠ r) && (decide (q.commit < r.commit))) &&
    !s.eng.cmds.any (fun q => decide (q.conn = c) && decide (q.gen = k.gen) && decide (q.tag = t) && decide (q.commit < r.commit) &&
      q.origin.isNone)

/-- The last octet of a response has left: the tag is free, the message no longer outstanding (R97, R133). -/
def State.responseSent (s : State) (c : Nat) (r : Rsp) : State :=
  let t := s.modConn c (fun k => { k with
    rsps := k.rsps.filter (fun q => decide (q.rsn ≠ r.rsn)), tags := if r.counted then k.tags.filter (fun g => g != r.tag) else k.tags })
  if r.counted then
    (match t.cmd? r.commit with
    | some q => if q.phase = .responding ∧ q.conn = c then t.finishCmd r.commit
        else { t with wot := { t.wot with outstanding := t.wot.outstanding - 1 } }
    | none => { t with wot := { t.wot with outstanding := t.wot.outstanding - 1 } })
  else t

/-- One RSP item of response `r`: as many octets as the frame, the windows and what can be read allow (R102, R103). A value
that no longer reads cuts the response, which ends there (R171). -/
def State.sendSegment (s : State) (c : Nat) (r0 : Rsp) : State :=
  let k := s.conn c
  let rsn := r0.rsn.getD (k.lastRsn + 1)
  let r := { r0 with rsn := some rsn }
  let total := segsLen r.segs
  let room := min k.rspWin k.cwnd - k.inFlight
  let want := min (total - r.sent) (min (k.maxFrame - 46) room)
  let got := s.segsRead r.segs r.sent want
  let cut := got.2.isSome
  let sent := r.sent + got.1.length
  let last := cut || decide (sent = total)
  if want = 0 ∧ total ≠ r.sent then s
  else
    let r1 := { r with sent := sent }
    let t := s.modConn c (fun k => { k with
      lastRsn := max k.lastRsn rsn, rsps := modFirst (fun q => decide (q = r0)) (fun _ => r1) k.rsps })
    let t := t.wotSend c [.rsp last rsn r.tag r.sent got.1]
    let t := if cut then t.raise 0x0128 (srcOf 0x15 0) c rsn (sent % 2 ^ 32) 0 else t
    if last ∧ (t.conn c).gen = k.gen then (t.responseSent c r1).settleClose c else t

/-- RESPONSE_SEND (R101): the earliest response of the tag that may be sent goes on. -/
def execResponseSend (conn tag : Nat) (s : State) : Out :=
  let k := s.conn conn
  let room := match k.path with
    | some p => s.txRoom p.mac p.prio (k.maxFrame + 100)
    | none => false
  outcome (Wf.conn conn && Wf.tag tag) (match k.rsps.find? (fun r => decide (r.tag = tag) && s.mayRespond conn k r) with
    | none => s
    | some r => whenDo (k.live && room) s (s.sendSegment conn r))

/-! ## ABORT (R143 to R145) -/

/-- The outcome of one ABORT message, and its effect on the target. -/
def State.runAbort (s : State) (a : AbortRec) (o : Octets) : State :=
  let k := s.conn a.conn
  let tag := msgP0 o % 65536
  let record (s : State) (out target : Nat) : State :=
    { s with wot := { s.wot with aborts := modFirst (fun b => decide (b = a)) (fun b => { b with outcome := out, target := target }) s.wot.aborts } }
  if tag = beAt o 4 2 then record s 0 0
  else if k.tags.contains tag then
    match s.eng.cmds.find? (fun q => decide (q.conn = a.conn) && decide (q.gen = a.gen) && decide (q.tag = tag) && q.origin.isNone) with
    | some q => record s 2 q.commit
    | none => record s 0 0
  else
    match k.uncommitted.find? (fun m => decide (m.1 < a.pos) && decide (beAt m.2 4 2 = tag) && !s.caught a.conn m.1) with
    | none => record s 0 0
    | some m =>
      let t := record s 1 m.1
      let t : State := { t with wot := { t.wot with gate := t.wot.gate.filter (fun g =>
        !(decide (g.conn = a.conn) && decide (g.gen = a.gen) && decide (g.pos = m.1))) } }
      let head := rspHead 0x0030 (msgOpcode m.2) 0 tag 0 0 0 0 0 0 0
      let t := t.modConn a.conn (fun k => { k with
        rsps := k.rsps ++ [{ tag := tag, commit := 0, segs := [.octets head], counted := false }] })
      t.settleConn a.conn

/-- ABORT (R143): the first ABORT message that has arrived with every earlier message. -/
def execAbort (s : State) : Out :=
  outcome true (match s.wot.aborts.find? (fun a => decide (a.outcome = 3)) with
    | none => s
    | some a => match (s.conn a.conn).msgAt a.pos with
      | .whole o => s.runAbort a o
      | .short => s
      | .badLen => s)

end Sys2Proof.Machine
end

