-- ==== Sys2Proof/Machine/Faults.lean ====
section
/-! DEFINITION. Faults of engines, clusters, management engines, HBM, die links and the port die (Tables 16-1, 16-2; R24, R29,
R152, R180, R349, R469 to R473). -/

namespace Sys2Proof.Machine

/-! ## Commands of a unit that is out of service -/

/-- A command whose region is out of service: the next region in service takes one that this package executes itself, with
UNREACHABLE when there is none (R152); every other is forwarded (R415, R473). -/
def State.rehome (s : State) (c : Cmd) : State :=
  if c.unbound then s
  else if c.local then s.steerLocal c ((c.region + 1) % 16) (c.engine % 32)
  else s.forward c

/-- Every command of a region or die out of service that has not ended here restarts elsewhere. -/
def State.eject (s : State) (p : Cmd → Bool) : State :=
  let t := s.restartWhere (fun x => s.eng.cmds.any (fun c => p c && decide (c.phase = Phase.running x)))
  t.eng.cmds.foldl (fun s c => if p c && (decide (c.phase = Phase.queued) || decide (c.phase = Phase.waitGrant))
    then s.rehome c else s) t

/-- The queued commands of engine e move to the next engine of the region (R152, R180). -/
def State.moveQueued (s : State) (e : Nat) : State :=
  s.eng.cmds.foldl (fun s c =>
    if c.engine = e ∧ (c.phase = Phase.queued ∨ c.phase = Phase.waitGrant) then
      match s.engineFor c.region ((e + 1) % 32) with
      | some n => s.modCmd c.commit (fun c => { c with engine := n })
      | none => s.rehome c
    else s) s

/-- The region of engine e has no engine left: it alone is offline (R152, R473 cause 4). -/
def State.settleRegion (s : State) (e : Nat) : State :=
  let d := e / 128
  let r := e / 32 % 4
  if s.enginesGone d r then
    let t := s.raiseAt 0x0130 (srcOf 0x16 0) s.commitNow (s.fullPlace (regionPlace d r)) 4
    t.settleCauses.eject (fun c => decide (c.region = d * 4 + r))
  else s

/-! ## Engines and clusters (R180, Table 16-1) -/

def State.modEngFault (s : State) (e : Nat) (f : UnitFault → UnitFault) : State :=
  { s with eng := { s.eng with faults := tabMod (fun _ => {}) s.eng.faults e f } }

/-- A fault counted in a unit's 60 s window; at the third the unit is retired. -/
def UnitFault.hit (u : UnitFault) (w : Nat) : UnitFault :=
  let n := countIn u.resets u.window w
  { u with resets := n, window := w, retired := u.retired || decide (3 ≤ n) }

/-- Engine e is reset, or retired: its sideband masks it, its locks are abandoned, its invocations end and their commands
go to the engine that R152 chooses. -/
def State.engineOut (s : State) (e : Nat) (retire : Bool) : State :=
  let t := (s.restartWhere (fun x => match x with
    | .eng n _ => decide (n = e)
    | .mgmt _ => false)).maskUnit (enginePlace e)
  let t := if retire then t.modEngFault e (fun u => { u with retired := true }) else t
  let t := t.moveQueued e
  if retire then t.settleRegion e else t.unmaskUnit (enginePlace e)

/-- ENGINE_PARITY_ERROR (R180, R469). -/
def execEngineParityError (engine : Nat) (s : State) : Out :=
  let u := (s.engFault engine).hit (s.windowNo win60s)
  let t := (s.modEngFault engine (fun _ => { u with retired := false })).raise 0x0100 (srcOf 0x02 engine) 1 u.resets 0 0
  let t := t.engineOut engine u.retired
  let t := if u.retired then (t.raise 0x0101 (srcOf 0x02 engine) 0 0 0 0).setAlert 2 true else t
  outcome (Wf.engine engine) (whenDo (!(s.engFault engine).retired && !s.inReset) s (t.tellLsa s))

/-- CLUSTER_ECC_ERROR (Table 16-1): corrected; a line of the instruction cache fetched again; or the eight engines reset,
which counts for the cluster alone (R469). -/
def execClusterEccError (cluster : Nat) (kind : ClusterErr) (s : State) : Out :=
  let engines := (upto 8).map (fun i => cluster * 8 + i)
  let t := match kind with
    | .corrected => s
    | .icache => { s with eng := { s.eng with icMiss := bump s.eng.icMiss cluster 1 } }
    | .state =>
      let u := (s.clFault cluster).hit (s.windowNo win60s)
      let t : State := { s with eng := { s.eng with clusters := tabSet (fun _ => {}) s.eng.clusters cluster u } }
      let t := t.raise 0x0100 (srcOf 0x03 cluster) 2 u.resets 0 0
      let t := if u.retired then (t.raise 0x0101 (srcOf 0x03 cluster) 0 0 0 0).setAlert 2 true else t
      let live := engines.filter (fun e => !(t.engFault e).retired)
      let t := if u.retired then live.foldl (fun (s : State) e => s.modEngFault e (fun u => { u with retired := true })) t else t
      live.foldl (fun (s : State) e => s.engineOut e u.retired) t
  outcome (Wf.cluster cluster) (whenDo (!(s.clFault cluster).retired && !s.inReset) s (t.tellLsa s))

/-! ## Management engines -/

/-- What the management engine of DIE d has in progress ends: a request with TSTATUS ENDED. -/
def State.mgmtEnd (s : State) (d : Nat) : State :=
  let t := s.freeCtx (.mgmt d)
  match s.inv (.mgmt d), s.eng.treqs with
  | some v, r :: _ =>
    (match v.work with
    | .program _ (some n) => if r.commit = n ∧ r.started then t.tRespond r 3 [] else t
    | .program _ none | .command _ => t)
  | none, r :: _ => if d = 0 ∧ r.started ∧ (upto 5).all (fun k => (s.inv (.mgmt k)).isNone) then t.tRespond r 3 [] else t
  | _, [] => t

/-- MGMT_ENGINE_ERROR (Table 16-1): a reset; at the third in 60 s the store die is offline (R473), or the package resets
(R472). -/
def execMgmtEngineError (die : Nat) (s : State) : Out :=
  let u := (s.mgmtFault die).hit (s.windowNo win60s)
  let p := placeOf die 0 0 0x10 0
  let t : State := { s with eng := { s.eng with mgmtFaults := tabSet (fun _ => {}) s.eng.mgmtFaults die u } }
  let t := ((t.raise 0x0102 (srcOf 0x10 (die * 256)) 1 u.resets 0 0).mgmtEnd die).maskUnit p
  let t :=
    if !u.retired then t.unmaskUnit p
    else if die = 0 then t.enterReset true true true
    else ((t.setAlert 2 true).dieOffline (die - 1) 3).eject (fun c => decide (c.die = die - 1))
  outcome (Wf.die5 die) (whenDo (!(s.mgmtFault die).retired && !s.inReset) s (if t.inReset then t else t.tellLsa s))

/-! ## The HBM stacks (R29, R349, R471) -/

/-- The copy of die d's home part in the next die's mirror part, as the image that a PREDUMP anchor names (R349). -/
def State.preDump (s : State) (d : Nat) : ImageAnchor :=
  let x := s.die d
  let y := s.die ((d + 1) % 4)
  { x.dumpImage d true with
    epoch := y.epochNo
    extents := (x.dumpImage d true).extents.filter (fun e => e.mirrorGood) }

/-- What a die holds in its stack is gone. -/
def Die.loseStack (d : Die) (cause : Nat) : Die :=
  { d with
    stackLost := true, stackCause := cause, live := false, dir := [], gens := [], puts := [], map := [], cache := []
    log := [], extents := [], originTail := [], epochOpen := none }

/-- The stack of store die d is lost: the die goes offline, its mirror copy is kept and written as a PREDUMP image by the
next die; the mirror copies that the stack held are gone; its selection copies make the table incomplete (R265). -/
def State.loseStack (s : State) (d cause : Nat) : State :=
  if (s.die d).stackLost then s
  else
    let next := (d + 1) % 4
    let prev := (d + 3) % 4
    let image := s.preDump d
    let kept := (s.die d).live && !(s.die next).stackLost
    let t := s.modDie d (fun x => x.loseStack cause)
    let t := if kept then t.modDie next (fun x =>
        let y := (x.programImage s.geo .host image).writeAnchor s.geo
        { y with images := image :: y.images }) else t
    let t := t.modDie prev (fun x => { x with extents := x.extents.map (fun e => { e with mirrorGood := false }) })
    let t := t.raiseAt 0x010A (srcOf 0x09 ((d + 1) * 256)) t.commitNow cause 0
    let t := (t.dieOffline d 2).eject (fun c => decide (c.die = d))
    if t.inReset then t else t.selIncomplete 3 (15 * 2 ^ (4 * d))

/-- STACK_LOSS (R29): cause 1 training, 2 loss of lock of its PHY, 3 a pseudo-channel. -/
def execStackLoss (die cause : Nat) (s : State) : Out :=
  outcome (Wf.die die && Wf.cause cause) (whenDo (!s.inReset) s ((s.loseStack die cause).tellLsa s))

/-- The response staging of a command is lost: with octets sent the response is cut there (R171). -/
def State.loseStaging (s : State) (c : Cmd) : State :=
  match (s.conn c.conn).rsps.find? (fun r => decide (r.commit = c.commit) && decide (r.tag = c.tag)) with
  | some r =>
    if 0 < r.sent then
      State.raise (s.modConn c.conn (fun k => { k with
        rsps := modFirst (fun q => decide (q = r)) (fun q => { q with segs := takeSegs q.sent q.segs }) k.rsps }))
        0x0128 (srcOf 0x15 0) c.conn (r.rsn.getD 0) (r.sent % 2 ^ 32) 0
    else if clsWrites c.entry.cls then s
    else (s.modConn c.conn (fun k => { k with rsps := k.rsps.filter (fun q => decide (q ≠ r)) })).modCmd c.commit
      (fun c => { c with phase := .queued, rsp := [], large := false, fenced := false })
  | none => s.restartWhere (fun x => decide (c.phase = Phase.running x))

/-- The program that the management engine of DIE d runs starts again from its first instruction, with the ARG of its request. -/
def State.restartProg (s : State) (d : Nat) : State :=
  match s.inv (.mgmt d) with
  | some v =>
    (match v.work with
    | .program _ req =>
      let arg := match s.eng.treqs with
        | r :: _ => if req = some r.commit then w64 (beAt r.body 8 8) else 0
        | [] => 0
      (s.freeCtx (.mgmt d)).setInv (.mgmt d) (some {
        work := v.work, image := v.image, len := v.len, cls := v.cls, dsag := v.dsag, budget := v.budget
        regs := tabSet (fun _ => 0) [] 0 arg, tag := v.tag, conn := v.conn, commit := v.commit, start := s.clock.cycles })
    | .command _ => s)
  | none => s

/-- The action of Table 16-2 for an uncorrectable error on store die d. -/
def State.hbmPart (s : State) (d : Nat) : HbmPart → State
  | .saggar mirror ref =>
    let home := if mirror then (d + 3) % 4 else d
    s.modDie home (fun x => { x with extents := x.extents.map (fun e =>
      if e.ref = ref then
        if mirror then { e with mirrorGood := e.homeGood } else { e with homeGood := e.mirrorGood }
      else e) })
  | .cache slot => s.modDie d (fun x =>
      let e := x.entry slot
      if e.cached then (x.uncache slot).setEntry slot { e with cached := false, cacheRef := 0 } else x)
  | .selCopy i =>
    if i / (4 * rowsPerBank) = d then
      let b := bankOf i
      let row := s.sel.row i
      let copy := s.sel.copy i
      if rowFails row copy then State.raise { s with sel := s.sel.setRow i copy } 0x0304 (srcOf 0x06 b) i 0 0 0
      else State.raise ({ s with sel := s.sel.setRow i row } |>.modBank b (fun k => { k with copyfix := k.copyfix + 1 }))
        0x0303 (srcOf 0x06 b) i 0 0 0
    else s
  | .images => (s.restartWhere (fun x => match x with
      | .eng e _ => decide (e / 128 = d)
      | .mgmt _ => false)).restartProg (d + 1)
  | .spill e c => s.restartWhere (fun x => decide (e / 128 = d) && decide (x = CtxId.eng e c))
  | .staging n => (match s.cmd? n with
      | some c => if c.die = d then s.loseStaging c else s
      | none => s)
  | .records n => (match s.cmd? n with
      | some c =>
        if c.die = d then
          (match c.phase with
          | .running x => (s.freeCtx x).endDiscard c (c.built 0x0040 0) false
          | .waitGrant | .queued => s.endDiscard c (c.built 0x0040 0) false
          | .holding | .responding | .forwarded => s)
        else s
      | none => s)
  | .mapDir => (s.dieOffline d 3).eject (fun c => decide (c.die = d))

/-- The number of a partition in Table 16-2. -/
def hbmPartNo : HbmPart → Nat
  | .saggar _ _ => 1
  | .cache _ => 2
  | .selCopy _ => 3
  | .images => 4
  | .spill _ _ => 5
  | .staging _ => 5
  | .records _ => 6
  | .mapDir => 7

/-- HBM_UE (R471): the event names an address that the spec does not derive from the partition (a free value). At the fourth
error in 86,400 s the pseudo-channel is retired and its stack is lost. -/
def execHbmUe (die pch : Nat) (part : HbmPart) (s : State) : Out :=
  let p := tabGet (fun _ => {}) (s.die die).pseudo pch
  let w := s.windowNo winDay
  let n := countIn p.ue p.window w
  let src := srcOf 0x08 ((die + 1) * 256 + pch)
  let a := s.free
  let t := a.2.modDie die (fun d => { d with
    pseudo := tabSet (fun _ => {}) d.pseudo pch { p with ue := n, window := w, retired := decide (4 ≤ n) } })
  let t := t.raise 0x0108 src (a.1.toNat % 2 ^ 32) (a.1.toNat / 2 ^ 32 % 256) (hbmPartNo part) n
  let t := t.hbmPart die part
  let t := if 4 ≤ n then
      State.loseStack (State.setAlert (State.raise (t.maskUnit (placeOf (die + 1) 0 0 0x08 pch)) 0x0109 src 0 0 0 0) 2 true) die 3
    else t
  outcome (Wf.die die && Wf.pch pch) (whenDo (!p.retired && !(s.die die).stackLost && !s.inReset) s (t.tellLsa s))

/-! ## Die links (R24, Table 16-1) -/

/-- SOURCE of an endpoint's events. -/
def linkSource (n : Nat) : Nat := srcOf 0x0A (if n < 8 then n else ((n - 8) / 2 + 1) * 256 + n % 2)

/-- Locks on the port die whose owner is on DIE d are released as abandoned (R442). -/
def State.portLocksLost (s : State) (d : Nat) : State :=
  let lost (p : Nat) (l : HwLock) : Bool := decide (Wf.placeDie p = 0) && (match l.owner with
    | some u => decide (u.die = d)
    | none => false)
  { s with locks := tabMapAll (fun _ => {}) (fun p l => if lost p l then { l with owner := none, aband := true } else l) s.locks }

/-- Every command of store die d that has not sent its final response goes on over the link that now carries its region, under its
own commit number: none is lost (R24). -/
def State.moveLinks (s : State) (d : Nat) : State :=
  { s with eng := { s.eng with cmds := s.eng.cmds.map (fun c =>
      if c.die = d then { c with link := s.linkFor d (c.region % 4) } else c) } }

/-- Endpoint n is retired: its traffic moves to the die's other link; with both gone the die is unreachable (R24), its locks
on the port die are abandoned (R442), and it holds no lease (R460). -/
def State.linkRetire (s : State) (n : Nat) : State :=
  let d := linkDie n
  let t := s.modLink n (fun x => { x with retired := true, inService := false, retraining := false })
  let t := (t.raise 0x0111 (linkSource n) 0 0 0 0).setAlert 2 true
  let t := (t.maskUnit (if n < 8 then placeOf 0 0 0 0x0A n else placeOf (d + 1) 0 0 0x0A (n % 2))).moveLinks d
  if t.linkRetired d 0 && t.linkRetired d 1 then
    let t := t.portLocksLost (d + 1)
    let t := if t.lease.holder = d then t.endLease 3 else t
    (t.dieOffline d 1).eject (fun c => decide (c.die = d))
  else t

/-- DLINK_CRC_ERROR (Table 16-1): the cycle is replayed; after 8 replays of one cycle the link retrains; the fourth retrain in
10 s retires it. -/
def execDlinkCrcError (link : Nat) (s : State) : Out :=
  let x := s.link link
  let k := if x.cycleAt = s.clock.cycles then x.cycleReplays + 1 else 1
  let w := s.windowNo win10s
  let t := s.modLink link (fun x => { x with
    replays := (x.replays + 1) % 2 ^ 64, cycleReplays := k, cycleAt := s.clock.cycles })
  let n := countIn x.retrains x.window w
  let t := if k < 8 then t else
    let t := t.modLink link (fun x => { x with retrains := n, window := w, retraining := true, inService := false, cycleReplays := 0 })
    let t := t.raise 0x0110 (linkSource link) n k 0 0
    if 4 ≤ n then t.linkRetire link else t
  outcome (Wf.link link) (whenDo (x.inService && !s.inReset) s (t.tellLsa s))

/-- DLINK_RETRAIN_END (Table 16-1): back in service, or retired when the retrain fails. -/
def execDlinkRetrainEnd (link : Nat) (trained : Bool) (s : State) : Out :=
  let t := if trained then s.modLink link (fun x => { x with retraining := false, inService := true }) else s.linkRetire link
  outcome (Wf.link link) (whenDo ((s.link link).retraining && !s.inReset) s (t.tellLsa s))

/-! ## The port die (R472) -/

/-- A frame's receive buffer: the frame at a position of a MAC's ring is dropped and counted in RX_PHYERR. -/
def State.dropFrame (s : State) (m p i : Nat) : State :=
  let ring := (s.mac m).ring p
  if i < ring.length then
    State.settleFlow ((s.modMac m (fun x => { x with rings := tabSet (fun _ => []) x.rings p (ring.eraseIdx i) })).bumpMac m 3 1)
  else s

/-- PORT_DIE_UE (R472): a frame's buffer as (MAC, priority, position in the ring); any other error of the port die's
singletons resets the package with PKGFAULT. -/
def execPortDieUe (buffer : Option (Nat × Nat × Nat)) (s : State) : Out :=
  let t := match buffer with
    | some b => s.dropFrame b.1 b.2.1 b.2.2
    | none => s.enterReset true true true
  outcome true (whenDo (s.resetMayBegin || (buffer.isSome && !s.inReset)) s t)

end Sys2Proof.Machine
end

