-- ==== Sys2Proof/Machine/FabricOps.lean ====
section
/-! DEFINITION. The fabric's own operations (R402 to R424): the database and its LSAs, the fabric record, proposals, the
adoption of a generation, records applied at a replica, copies for a filling replica. -/

namespace Sys2Proof.Machine

/-! ## The coordinator (R406) -/

/-- The coordinator: the lowest unique ID reached (R406). -/
def State.coordinator (s : State) : BitVec 64 := s.reachable.foldl (fun m u => if u < m then u else m) Config.uid

/-! ## The fabric record (R405, R504) -/

/-- The newest valid copy. -/
def State.fabRec (s : State) : Option FabRec :=
  match s.fab.rec0, s.fab.rec1 with
  | some a, some b => if a.wseq < b.wseq then some b else some a
  | some a, none => some a
  | none, o => o

def emptyRec : FabRec := { wseq := 0, gen := none, voteGen := 0, voteCoord := 0, addr := 0, assigned := false }

/-- A write of the record: to the copy that does not hold the newest one. -/
def State.writeRec (s : State) (f : FabRec → FabRec) : State :=
  let old := s.fabRec.getD emptyRec
  let new := { f old with wseq := old.wseq + 1 }
  let into1 := match s.fab.rec0 with
    | some a => decide (a.wseq = old.wseq)
    | none => false
  if into1 then { s with fab := { s.fab with rec1 := some new } } else { s with fab := { s.fab with rec0 := some new } }

/-- A write is due. -/
def State.recordLater (s : State) (p : FabPend) : State := { s with fab := { s.fab with pends := s.fab.pends ++ [p] } }

/-! ## Generations (R406 to R409) -/

/-- The member record of a reachable package: SERVE and flags as its LSA. -/
def State.memberOf (s : State) (uid : BitVec 64) (addr : Nat) : Member :=
  if uid = Config.uid then { uid, addr, serve := s.ownServe, flags := s.ownFlags }
  else match s.fab.lsdb.find? (fun l => l.origin == uid) with
    | some l => { uid, addr, serve := l.serve, flags := l.flags % 8 }
    | none => { uid, addr, serve := 0, flags := 0 }

/-- Every generation known, newest first. -/
def State.knownGens (s : State) : List Gen := s.fab.gen.toList ++ s.fab.older

/-- The address that a package holds in or out of the generation. -/
def State.keptAddr (s : State) (uid : BitVec 64) : Option Nat :=
  s.knownGens.findSome? (fun g => (g.members.find? (fun m => m.uid == uid)).map (fun m => m.addr))

/-- Addresses in use: those of every package known that was not removed. -/
def State.usedAddrs (s : State) : List Nat :=
  (s.knownGens.flatMap (fun g => g.members)).filterMap (fun m => if s.fab.removed.contains m.uid then none else some m.addr)

/-- Members with their addresses: kept ones, and the lowest free ones for joiners in ascending order of unique ID (R409). -/
def State.assignAddrs (s : State) (uids : List (BitVec 64)) : List Member :=
  ((sortBy (fun u => u.toNat) uids).foldl (fun (acc : List Member × List Nat) u =>
    match s.keptAddr u with
    | some a => (acc.1 ++ [s.memberOf u a], acc.2)
    | none =>
      let a := (leastFrom 4097 0 (fun k => !acc.2.contains k)).getD 0
      (acc.1 ++ [s.memberOf u a], acc.2 ++ [a])) ([], s.usedAddrs)).1

/-- The generation that a coordinator proposes now (R406, R408); none when there is nothing to propose. -/
def State.nextGen (s : State) : Option Gen :=
  let us := s.reachable.filter (fun u => !s.fab.removed.contains u)
  let repl := field s.fab.ctrlLive 0 2
  match s.lastGen with
  | none =>
    (match s.fab.formCount with
    | some n => if n ≤ us.length then some { num := 1, repl, members := s.assignAddrs us } else none
    | none => none)
  | some g =>
    let members := s.assignAddrs us
    if s.fab.gen = none ∨ sortBy (fun m => m.uid.toNat) g.members ≠ members then
      some { num := g.num + 1, repl, members } else none

/-- Body of a PROPOSE or COMMIT. -/
def genBody (dst : BitVec 64) (coord : BitVec 64) (g : Gen) : Octets :=
  beOctets 8 dst.toNat ++ beOctets 8 g.num ++ beOctets 8 coord.toNat ++ [BitVec.ofNat 8 g.repl] ++
  beOctets 2 g.members.length ++ g.members.flatMap (fun m =>
    beOctets 8 m.uid.toNat ++ beOctets 2 m.addr ++ beOctets 2 m.serve.toNat ++ [BitVec.ofNat 8 m.flags] ++ zeros 3)

/-- A generation read from a PROPOSE or COMMIT. -/
def genOfBody (o : Octets) : Gen :=
  let n := beAt o 25 2
  { num := beAt o 8 8, repl := beAt o 24 1
    members := (upto n).map (fun k =>
      let m := slice o (27 + 16 * k) 16
      { uid := BitVec.ofNat 64 (beAt m 0 8), addr := beAt m 8 2 % 4096, serve := BitVec.ofNat 16 (beAt m 10 2), flags := beAt m 12 1 }) }

/-- A generation sent to each of its members but ourselves. -/
def State.sendGen (s : State) (type : Nat) (g : Gen) : State :=
  (g.members.filter (fun m => m.uid != Config.uid)).foldl (fun s m => s.rfpOwn m.uid type dstByUid (genBody m.uid Config.uid g)) s

/-- The votes of a proposal suffice (R407, R408). -/
def State.voted (s : State) (p : Proposal) : Bool :=
  match s.lastGen with
  | some g => majority g p.votes
  | none => p.gen.members.all (fun m => p.votes.contains m.uid)

/-- A proposal that holds its votes commits: COMMIT to every member, and our own adoption after its record (R405, R407). -/
def State.settleProposal (s : State) : State :=
  match s.fab.proposal with
  | some p =>
    if !p.committed && s.voted p then
      let t : State := { s with fab := { s.fab with proposal := some { p with committed := true } } }
      (t.sendGen 5 p.gen).recordLater (.adopt p.gen)
    else s
  | none => s

/-- A proposal starts: it goes to each proposed member, and our own vote is written first (R405, R407). -/
def State.propose (s : State) (g : Gen) : State :=
  let votes := match s.fab.proposal with
    | some p => if p.gen.num = g.num then p.votes else []
    | none => []
  let t : State := { s with fab := { s.fab with proposal := some { gen := g, votes } } }
  let u := t.sendGen 3 g
  if votes.contains Config.uid then u.settleProposal else u.recordLater (.vote g.num Config.uid)

/-! ## Records at a replica (R414, R419, R421) -/

/-- The namespace, key and hashes that a record is about. -/
def State.recordActor (s : State) (commit nsid : Nat) (record value : Octets) : Actor :=
  let key := recordKey record
  let stem := s.stemHashOf nsid key
  { commit, die := regionOf stem / 4, region := regionOf stem % 4, keyHash := s.keyHashOf nsid key, stemHash := stem
    nsid, key, data := value, stagedBase := none, stagedVal := [] }

/-- The selection changes of a record's items, for our handle of the object. -/
def recordRows (items : List EffItem) (h : W32) : List SelChange :=
  items.filterMap (fun i => match i with
    | .selrow _ rm st pr _ v => some (if v then .put rm st pr h else .drop rm st h)
    | .dirent _ _ | .dirfree _ | .value _ _ _ | .origin _ _ | .runmove _ _ | .tableNs _ _ | .tableHandler _ _ | .tableCred _ _
    | .tableProg _ _ | .tableHkey _ | .retire _ _ => none)

/-- A record may be applied here: the sequencer assigns numbers and no request waits before it (R55, R67), and its home part has room
for the value and the log (R28, R334); a value that no empty value area could hold waits for no room (log 106). -/
def State.recordReady (s : State) (nsid : Nat) (record : Octets) (value : Option Octets) : Bool :=
  let d := s.die (s.recordActor 0 nsid record []).die
  s.wot.resumed && !s.reqHolds && !d.logFull && (match value with
    | some v => (d.extentRef (extentUnits v.length)).isSome || decide (valueAreaUnits < extentUnits v.length)
    | none => true)

/-- A record is applied here under a commit number of our own (R414, R419 step 4). -/
def State.applyRecord (s : State) (nsid : Nat) (items : List EffItem) (record : Octets) (value : Option Octets) : State :=
  let r := s.nextCommit
  let n := r.1
  let a := r.2.recordActor n nsid record (value.getD [])
  let d := r.2.die a.die
  let um := w64 (leAt record 8 8)
  let own := d.findKey a.keyHash nsid a.key
  let handle := match own with
    | some e => e.handle
    | none => r.2.newHandle a.die d
  let placed := match value with
    | some v =>
      let p := d.extentRef (extentUnits v.length)
      d.addExtent { ref := p.getD noPlace, owner := .command n, nsid, commit := n, chunk0 := 0, value := v, fromBase := p.isNone }
    | none => d
  let staged := items.flatMap (fun i => match i with
    | .dirent _ e => (match own with
      | some _ => [Staged.upd handle (if value.isSome then 1 else 0) 0 e.length um]
      | none => [Staged.ins handle { hash := a.keyHash, key := a.key } (if value.isSome then 1 else 3) 0 e.length um])
    | .dirfree _ => (match own with
      | some _ => [Staged.del handle]
      | none => [])
    | .selrow _ _ _ _ _ _ | .value _ _ _ | .origin _ _ | .runmove _ _ | .tableNs _ _ | .tableHandler _ _ | .tableCred _ _ | .tableProg _ _
    | .tableHkey _ | .retire _ _ => [])
  let after := (staged.foldl (fun d x => d.applyStaged a x) placed).dropExtents (.command n)
  let logged := after.logRecord n nsid (after.itemsOf a.die a staged)
  let logged := { logged with ledger := { logged.ledger with stream := logged.ledger.stream ++ [(n, some (deltaOf a.region d after))] } }
  let t := r.2.modDie a.die (fun _ => logged)
  { t with sel := { t.sel with
      stream := t.sel.stream ++ [(n, some (staged.filterMap Staged.selChange ++ recordRows items handle))] } }

/-- The value octets of a prepared record, where it carries a value. -/
def Prepared.value? (p : Prepared) : Option Octets := if p.total = noValue then none else some p.value

/-- A prepared record is applied and forgotten. -/
def State.applyPrepared (s : State) (p : Prepared) : State :=
  let t := s.applyRecord p.nsid p.items p.record p.value?
  { t with fab := { t.fab with prepared := t.fab.prepared.filter (fun q => decide (q ≠ p)) } }

/-- The prepared records that meet `f` are applied in the executor's commit order, until one must wait; whether all were. -/
def State.applyWhere (s : State) (f : Prepared → Bool) : State × Bool :=
  (sortBy (fun p => p.commit) (s.fab.prepared.filter f)).foldl (fun acc p =>
    if acc.2 && acc.1.recordReady p.nsid p.record p.value? then (acc.1.applyPrepared p, true) else (acc.1, false)) (s, true)

/-! ## Filling a replica (R414) -/

/-- The objects of the buckets and regions for which we are the acting executor and `uid` is a FILLING replica. -/
def State.fillObjects (s : State) (uid : BitVec 64) : List (Nat × DirEntry × W64) :=
  (upto 4).flatMap (fun d => ((s.die d).dir.filter (fun e => e.2.live)).filterMap (fun e =>
    let stem := s.stemHashOf e.2.nsid e.2.key
    let acting := match s.actingExecutor stem false with
      | some m => decide (m.uid = Config.uid)
      | none => false
    let filling := (s.placement (bucketOf stem)).any (fun p => p.1.uid == uid && !p.2)
    if acting && filling then some (d, e.2, stem) else none))

/-- REGION octet of the COPY that ends a snapshot, and of the one that ends a copy of journal records (log 17). -/
def copyEnd : Nat := 0xFF
def journalEnd : Nat := 0xFE

/-- Selection rows of an object, as wire items. -/
def State.objectRows (s : State) (h : W32) : List Octets :=
  (s.sel.rows.filter (fun r => rowValid r.2 && decide (rowHandle r.2 = h))).map (fun r => itemHead 5 (leOctets 4 r.1 ++ rowCopyOctets r.2))

/-- Bucket, region and commit number of a COPY (Table 13-2). -/
def copyHead (stem : W64) (commit : Nat) : Octets := beOctets 2 (bucketOf stem) ++ [BitVec.ofNat 8 (regionOf stem)] ++ beOctets 8 commit

/-- An object as it stands, with its rows and value, in COPY messages. -/
def State.copyObject (s : State) (uid : BitVec 64) (die : Nat) (e : DirEntry) (stem : W64) (commit : Nat) : State :=
  let d := s.die die
  (recordBodies (copyHead stem commit) (itemHead 1 (d.entryOctets e 0) :: s.objectRows e.handle) e.nsid (d.recordOf e)
    (some (d.wholeValue e))).foldl (fun s b => s.streamSend uid 10 b) s

/-- The records of store die d that its retained journal and its effect log hold, in order, and the oldest epoch's directory, which
names what stood before them (R341, R342). -/
def Die.retained (d : Die) : List EffRec × Tab DirEntry :=
  ((d.journal.filter (fun j => decide (d.oldestJ ≤ j.1))).flatMap (fun j => j.2) ++ d.log,
   match d.epochs.getLast? with
   | some e => e.snap.dir
   | none => [])

/-- The entry that a handle named when record `r` was made: a DIRENT retained before it, else the oldest epoch's. -/
def entryBefore (rs : List EffRec) (dir : Tab DirEntry) (h : W32) : Option DirEntry :=
  let named := rs.flatMap (fun r => r.items.filterMap (fun i => match i with
    | .dirent _ e => if e.handle = h then some e else none
    | _ => none))
  named.getLast?.orElse (fun _ => (dir.find? (fun e => decide (e.2.handle = h))).map (fun e => e.2))

/-- The commit number from which the retained journals of every store die in service hold every record (R342). -/
def State.journalFrom (s : State) : Nat :=
  (upto 4).foldl (fun m d => match (s.die d).epochs.getLast? with
    | some e => if (s.die d).live then max m e.lastCommit else m
    | none => m) 0

/-- The last record of ours that the peer applied lies in our retained journal: it catches up from there (R414). -/
def State.journalServes (s : State) (uid : BitVec 64) : Bool :=
  let n := (s.peer uid).applied
  decide (0 < n) && decide (s.journalFrom ≤ n)

/-- The journal records after commit number n, for the buckets that `uid` fills from us: each object changed since as it stands at its
last change, each one removed as a removal (R414). -/
def State.sendJournal (s : State) (uid : BitVec 64) (n : Nat) : State :=
  let ours (nsid : Nat) (key : Octets) : Option W64 :=
    let stem := s.stemHashOf nsid key
    let acting := match s.actingExecutor stem false with
      | some m => decide (m.uid = Config.uid)
      | none => false
    if acting && (s.placement (bucketOf stem)).any (fun p => p.1.uid == uid && !p.2) then some stem else none
  let t := (upto 4).foldl (fun s d =>
    let x := s.die d
    let ret := x.retained
    let due := ret.1.filter (fun r => decide (n < r.commit))
    due.foldl (fun s r => r.items.foldl (fun s i => match i with
      | .dirent _ e => (match ours e.nsid e.key, x.liveBy e.handle with
        | some stem, some k => if k.version = e.version then s.copyObject uid d k stem r.commit else s
        | _, _ => s)
      | .dirfree h => (match entryBefore (ret.1.filter (fun q => decide (q.commit < r.commit))) ret.2 h with
        | some e => (match ours e.nsid e.key with
          | some stem => (recordBodies (copyHead stem r.commit) [itemHead 2 (leOctets 4 h.toNat)] e.nsid
              (keyRecord e.version e.usermeta e.key) none).foldl (fun s b => s.streamSend uid 10 b) s
          | none => s)
        | none => s)
      | .selrow _ _ _ _ h _ => (match (s.die (handleDie h)).liveBy h with
        | some e => (match ours e.nsid e.key with
          | some stem => (recordBodies (copyHead stem r.commit) [itemHead 5 (i.body r [])] e.nsid
              ((s.die (handleDie h)).recordOf e) none).foldl (fun s b => s.streamSend uid 10 b) s
          | none => s)
        | none => s)
      | _ => s) s) s) s
  t.streamSend uid 10 (beOctets 2 0 ++ [BitVec.ofNat 8 journalEnd] ++ beOctets 8 s.wot.lastCommit)

/-- What a filling replica is sent: the journal records after its last applied one, or else a snapshot, one record for each object with
its selection rows, then the end (R414). -/
def State.sendCopy (s : State) (uid : BitVec 64) : State :=
  if s.journalServes uid then s.sendJournal uid (s.peer uid).applied
  else
    let c := s.wot.lastCommit
    let t := (s.fillObjects uid).foldl (fun s o => s.copyObject uid o.1 o.2.1 o.2.2 c) s
    t.streamSend uid 10 (beOctets 2 0 ++ [BitVec.ofNat 8 copyEnd] ++ beOctets 8 c)

/-- Objects of ours that a finished snapshot of `uid` did not bring again are gone there, and are removed (R414). -/
def State.dropUnfilled (s : State) (uid : BitVec 64) : State :=
  (upto 4).foldl (fun s d =>
    ((s.die d).dir.filter (fun e => e.2.live && decide (e.2.version ≤ s.fab.fillBase))).foldl (fun s e =>
      let stem := s.stemHashOf e.2.nsid e.2.key
      let theirs := match s.actingExecutor stem false with
        | some m => decide (m.uid = uid)
        | none => false
      let filling := (s.placement (bucketOf stem)).any (fun p => p.1.uid == Config.uid && !p.2)
      if theirs && filling then s.applyRecord e.2.nsid [.dirfree e.2.handle] ((s.die d).recordOf e.2) none else s) s) s

/-! ## Adoption (R407, R409, R413, R420 to R424) -/

/-- This package is the acting executor in region r among the SERVING replicas of a bucket (R413). -/
def actsIn (serving : List Member) (r : Nat) : Bool :=
  match serving.find? (fun m => m.serve.getLsbD r) with
  | some m => decide (m.uid = Config.uid)
  | none => false

/-- Buckets and regions whose executor we become (true) or cease to be (false); without a generation before there is no
change to record (log 27). -/
def actingChanges (hkey : Octets) (old new : List Gen) : List (Nat × Nat × Bool) :=
  if old = [] then []
  else (upto 65536).flatMap (fun b =>
    let was := servingOf hkey old b
    let is := servingOf hkey new b
    (upto 16).filterMap (fun r => if actsIn was r = actsIn is r then none else some (b, r, actsIn is r)))

/-- The replicas that a write waits for, changed. -/
def State.modWait (s : State) (commit : Nat) (f : List (BitVec 64) → List (BitVec 64)) : State :=
  let waits := modFirst (fun v => v.commit == commit) (fun v => { v with waiting := f v.waiting }) s.fab.waits
  { s with fab := { s.fab with waits := waits } }

/-- A write that waits for replicas ends when we are no longer its stem's executor (R420). -/
def State.settleWaits (s : State) : State :=
  s.fab.waits.foldl (fun s w => match s.cmd? w.commit with
    | some c => (match s.actingExecutor c.stemHash (clsSelects c.entry.cls) with
      | some m => if m.uid = Config.uid then
          let others := s.otherReplicas w.bucket
          (s.modWait w.commit (fun l => l.filter (fun u => others.contains u))).settleWait w.commit
        else s.failWait w.commit
      | none => s.failWait w.commit)
    | none => s) s

/-- We hold a FILLING bucket in the generation in force. -/
def State.fillingHere (s : State) : Bool :=
  match s.selfMember with
  | some m => !m.fillDone && (upto 65536).any (fun b => (s.placement b).any (fun p => p.1.uid == Config.uid && !p.2))
  | none => false

/-- The members that may replicate as FILLING. -/
def Gen.filling (g : Gen) : List (BitVec 64) := (g.members.filter (fun m => !m.fillDone)).map (fun m => m.uid)

/-- The acting executors of the regions of the buckets that we fill, other than ourselves (R414). -/
def State.fillSources (s : State) : List (BitVec 64) :=
  ((upto 65536).flatMap (fun b =>
    if (s.placement b).any (fun p => p.1.uid == Config.uid && !p.2) then
      (upto 16).filterMap (fun r => ((s.serving b).find? (fun m => m.serve.getLsbD r && m.uid != Config.uid)).map (fun m => m.uid))
    else [])).eraseDups

/-- A committed generation is adopted (R407): events, the fabric address, the executor's duties, the end of a minority. -/
def State.adopt (s : State) (g : Gen) : State :=
  let before := s.gens
  let first := s.fab.gen.isNone
  let t : State := { s with fab := { s.fab with
    gen := some g, older := before, proposal := none, formCount := none
    removed := s.fab.removed.filter (fun u => g.members.any (fun m => m.uid == u)) } }
  let t := t.raise 0x0400 (srcOf 0x00 0) (g.num % 2 ^ 32) (g.num / 2 ^ 32) g.members.length 0
  match t.selfMember with
  | none => t
  | some m =>
    let t : State := { t with fab := { t.fab with assigned := true, addr := m.addr } }
    let t := if s.fab.assigned && decide (s.fab.addr = m.addr) then t
      else t.raise 0x0017 (srcOf 0x00 0) m.addr 0 (g.num % 2 ^ 32) (g.num / 2 ^ 32)
    let changes := if first then [] else actingChanges t.hkeyOctets before t.gens
    let t := changes.foldl (fun s e => s.raise 0x0401 (srcOf 0x00 0) (g.num % 2 ^ 32) (g.num / 2 ^ 32) (e.1 + e.2.1 * 2 ^ 16)
      (bit01 e.2.2)) t
    let gained := ((changes.filter (fun e => e.2.2)).map (fun e => e.1)).eraseDups
    let t : State := { t with fab := { t.fab with unresolved := gained } }
    let t := if t.cause 4 then
        State.setCause (State.raise { t with fab := { t.fab with minority := false } } 0x0402 (srcOf 0x00 0) (g.num % 2 ^ 32)
          (g.num / 2 ^ 32) 0 0) 4 false
      else t
    let t := t.settleWaits
    let fills := t.fillingHere
    let t : State := { t with fab := { t.fab with
      fillDone := !fills, fillBase := t.wot.lastCommit
      fillFrom := if fills then t.fillSources else [] } }
    let t := (g.filling.filter (fun u => u != Config.uid)).foldl (fun s u => s.sendCopy u) t
    t.settleServe.ownChanged

end Sys2Proof.Machine
end

