-- ==== Sys2Proof/Machine/FabricRows.lean ====
section
/-! DEFINITION. The commands of the fabric (13): timers, the messages of Table 13-2 at the front of the RFP inbox, the fabric
record, STEM_RESOLVE. -/

namespace Sys2Proof.Machine

/-- The first message of a type waiting, and the state without it. -/
def State.takeRfp (s : State) (type : Nat) (ok : Rfp → Bool) : Option (Rfp × State) :=
  match s.fab.inbox.find? (fun m => decide (m.type = type) && ok m) with
  | none => none
  | some m => some (m, { s with fab := { s.fab with inbox := s.fab.inbox.erase m } })

/-- The fabric runs on the MAC: FABEN, present, link up, in a mode with lanes in service. -/
def State.fabricMac (s : State) (m : Nat) : Bool :=
  fabEn (s.mac m).live && s.macPresent m && (s.mac m).link && s.mode.mode.trains

/-! ## Discovery (R402, R403) -/

/-- HELLO_TIMER (R402): HELLO goes to the hello group of filter entry 15, naming those heard on this MAC. -/
def execHelloTimer (mac : Nat) (s : State) : Out :=
  let heard := s.fab.nbrs.filter (fun n => decide (n.mac = mac) && n.heard)
  let body := [BitVec.ofNat 8 mac] ++ beOctets 2 heard.length ++ heard.flatMap (fun n => beOctets 8 n.uid.toNat)
  let g := filterAt (s.mac mac).live 15
  let q := s.takeOwnSeq
  outcome (Wf.mac mac) (whenDo (s.fabricMac mac) s
    (q.2.rfpEmit mac (filterEth g) (filterV6 g) 1
      (rfpOctets s.fabKey 1 1024 dstNeighbour Config.uid s.srcAddr q.1 s.fab.run body)))

/-- The neighbour `uid` on MAC m becomes `f` of what it was; our LSA follows when it comes up or goes down (R403). -/
def State.modNbr (s : State) (uid : BitVec 64) (m : Nat) (f : Nbr → Nbr) : State :=
  let old := (s.nbr? uid m).getD { uid, mac := m, eth := 0, ip := 0 }
  let new := f old
  let rest := s.fab.nbrs.filter (fun n => !(n.uid == uid && n.mac == m))
  let t : State := { s with fab := { s.fab with nbrs := rest ++ [new] } }
  if old.isUp = new.isUp then t else t.ownChanged

/-- NEIGHBOR_DOWN (R402). -/
def execNeighborDown (uid : BitVec 64) (mac : Nat) (s : State) : Out :=
  outcome (Wf.mac mac) (whenDo (s.nbr? uid mac).isSome s
    (s.modNbr uid mac (fun n => { n with heard := false, hearsUs := false, isUp := false })))

/-- HELLO (R402). -/
def execHello (s : State) : Out :=
  outcome true (match s.takeRfp 1 (fun _ => true) with
    | none => s
    | some (m, t) =>
      let n := beAt m.body 1 2
      let lists := (upto n).any (fun k => decide (beAt m.body (3 + 8 * k) 8 = Config.uid.toNat))
      t.modNbr m.srcUid m.mac (fun x => { x with eth := m.eth, ip := m.ip, heard := true, hearsUs := lists, isUp := lists }))

/-- LSA_TIMER (R403). -/
def execLsaTimer (s : State) : Out := outcome true (whenDo s.mode.mode.trains s s.originate)

/-- An LSA as its body states it. -/
def lsaOfBody (o : Octets) : Lsa :=
  { origin := BitVec.ofNat 64 (beAt o 0 8), seq := beAt o 8 8, serve := BitVec.ofNat 16 (beAt o 16 2), flags := beAt o 18 1
    nbrs := (upto (beAt o 19 2)).map (fun k => (BitVec.ofNat 64 (beAt o (21 + 9 * k) 8), beAt o (29 + 9 * k) 1)) }

/-- What an LSA states, its number left out. -/
def Lsa.noSeq (l : Lsa) : Lsa := { l with seq := 0 }

/-- LSA (R403): a newer one is stored and flooded; the database has changed when what it states has. -/
def execLsa (s : State) : Out :=
  outcome true (match s.takeRfp 2 (fun _ => true) with
    | none => s
    | some (m, t) =>
      let l := lsaOfBody m.body
      let old := t.fab.lsdb.find? (fun k => k.origin == l.origin)
      let newer := decide (l.origin ≠ Config.uid) && (match old with
        | some k => decide (k.seq < l.seq)
        | none => true)
      if newer then
        let u : State := { t with fab := { t.fab with lsdb := t.fab.lsdb.filter (fun k => k.origin != l.origin) ++ [l] } }
        let u := u.floodNbrs 2 m.body (some m.srcUid)
        if old.map Lsa.noSeq = some l.noSeq then u else u.dbChanged
      else t)

/-! ## Membership (R405 to R409) -/

/-- PROPOSE_START (R406, R408): the database has been unchanged for 20 ms. A proposal that has not committed gives way, under its GEN and
with its votes, to one that names what is reached now. -/
def execProposeStart (s : State) : Out :=
  outcome true (match s.nextGen with
    | none => s
    | some g => whenDo ((match s.fab.proposal with
        | some p => !p.committed && decide (p.gen ≠ g)
        | none => true) && decide (s.coordinator = Config.uid) && s.mode.mode.trains) s (s.propose g))

/-- PROPOSE_RESEND (R407): under the same GEN. -/
def execProposeResend (s : State) : Out :=
  outcome true (match s.fab.proposal with
    | none => s
    | some p => whenDo (!p.committed && s.mode.mode.trains) s (s.sendGen 3 p.gen))

/-- The body of our VOTE. -/
def voteBody (coord : BitVec 64) (gen : Nat) : Octets := beOctets 8 coord.toNat ++ beOctets 8 gen ++ beOctets 8 coord.toNat

/-- PROPOSE (R405, R406): a vote is written into the record before it is sent; a vote already written is sent again. -/
def execPropose (s : State) : Out :=
  outcome true (match s.takeRfp 3 (fun _ => true) with
    | none => s
    | some (m, t) =>
      let g := genOfBody m.body
      let coord := BitVec.ofNat 64 (beAt m.body 16 8)
      let r := t.fabRec.getD emptyRec
      let last := match t.lastGen with
        | some k => k.num
        | none => 0
      let names := t.dbStable && decide (coord = t.coordinator) && decide (coord = m.srcUid) && decide (last < g.num)
      if !names then t
      else if r.voteGen = g.num ∧ r.voteCoord = coord then t.rfpOwn coord 4 dstByUid (voteBody coord g.num)
      else if r.voteGen < g.num ∧ !(t.fab.pends.any (fun p => match p with
          | .vote n _ => decide (g.num ≤ n)
          | .adopt _ => false)) then t.recordLater (.vote g.num coord)
      else t)

/-- VOTE (R407). -/
def execVote (s : State) : Out :=
  outcome true (match s.takeRfp 4 (fun _ => true) with
    | none => s
    | some (m, t) =>
      match t.fab.proposal with
      | some p =>
        if beAt m.body 8 8 = p.gen.num ∧ beAt m.body 16 8 = Config.uid.toNat ∧ !p.votes.contains m.srcUid then
          State.settleProposal { t with fab := { t.fab with proposal := some { p with votes := p.votes ++ [m.srcUid] } } }
        else t
      | none => t)

/-- COMMIT (R405, R407): written into the record, then adopted. -/
def execCommit (s : State) : Out :=
  outcome true (match s.takeRfp 5 (fun _ => true) with
    | none => s
    | some (m, t) =>
      let g := genOfBody m.body
      let last := match t.lastGen with
        | some k => k.num
        | none => 0
      if last < g.num ∧ g.members.any (fun k => k.uid == Config.uid) then t.recordLater (.adopt g) else t)

/-- FABRIC_RECORD_WRITTEN (R405, R504): the copy reads back correct; the VOTE is sent, our own vote counts, or the
generation is adopted. -/
def execFabricRecordWritten (s : State) : Out :=
  outcome true (match s.fab.pends with
    | [] => s
    | p :: rest =>
      let t : State := { s with fab := { s.fab with pends := rest } }
      match p with
      | .vote n coord =>
        let u := t.writeRec (fun r => { r with voteGen := n, voteCoord := coord })
        if coord = Config.uid then
          (match u.fab.proposal with
          | some q => if q.gen.num = n then
              State.settleProposal { u with fab := { u.fab with proposal := some { q with votes := q.votes ++ [Config.uid] } } } else u
          | none => u)
        else u.rfpOwn coord 4 dstByUid (voteBody coord n)
      | .adopt g =>
        let own := g.members.find? (fun k => k.uid == Config.uid)
        let u := t.writeRec (fun r => { r with
          gen := some g, assigned := r.assigned || own.isSome, addr := match own with
            | some k => k.addr
            | none => r.addr })
        u.adopt g)

/-! ## Forwarding (R415, R416, R418) -/

/-- FWD (R416): the octets are collected; a whole message is ordered at our sequencer as of connection 65,536 + the
forwarder's address. -/
def execFwd (s : State) : Out :=
  outcome true (match s.takeRfp 6 (fun _ => true) with
    | none => s
    | some (m, t) =>
      let n := beAt m.body 0 8
      let total := beAt m.body 14 4
      let got := match t.fab.fwdIn.find? (fun f => f.1 == m.srcUid && f.2.1 == n) with
        | some f => f.2.2
        | none => []
      let all := got ++ m.body.drop 18
      let rest := t.fab.fwdIn.filter (fun f => !(f.1 == m.srcUid && f.2.1 == n))
      if all.length < total then { t with fab := { t.fab with fwdIn := rest ++ [(m.srcUid, n, all)] } }
      else
        let u : State := { t with fab := { t.fab with fwdIn := rest } }
        let addr := (u.addrOf m.srcUid).getD 0
        let r := u.nextCommit
        whenDo (s.wot.resumed && s.mode.mode.serving && decide (s.wot.outstanding < 1048576) && !s.reqHolds) s
          (r.2.admitCmd r.1 (65536 + addr) 0 (beAt all 4 2) all ((headAt all 8 1).testBit 7) 0 0 (some (m.srcUid, n))))

/-- FWDRSP (R416, R418): the response leaves on the client connection; a write stays noted until SYNC reports it. -/
def execFwdrsp (s : State) : Out :=
  outcome true (match s.takeRfp 7 (fun _ => true) with
    | none => s
    | some (m, t) =>
      let n := beAt m.body 0 8
      match t.fab.fwds.find? (fun f => f.commit == n && f.uid == m.srcUid && !f.ended) with
      | none => t
      | some f =>
        let f' := { f with rsp := f.rsp ++ m.body.drop 13 }
        if beAt m.body 12 1 = 0 then
          { t with fab := { t.fab with fwds := modFirst (fun k => k == f) (fun _ => f') t.fab.fwds } }
        else
          match t.cmd? n with
          | none => { t with fab := { t.fab with fwds := t.fab.fwds.filter (fun k => k != f) } }
          | some c =>
            let w := clsWrites c.entry.cls
            let fwds := if w then modFirst (fun k => k == f) (fun _ => { f' with ended := true, rsp := [] }) t.fab.fwds
              else t.fab.fwds.filter (fun k => k != f)
            let u := State.holdRsp { t with fab := { t.fab with fwds := fwds } } c [.octets f'.rsp] false [] false
            if w then u.streamSend m.srcUid 11 ([0#8] ++ beOctets 8 n) else u)

/-- Our commit number of a forwarded write that has ended here. -/
def State.doneCommit (s : State) (uid : BitVec 64) (n : Nat) : Option Nat :=
  (s.fab.fwdDone.find? (fun e => e.1 == uid && e.2.1 == n)).map (fun e => e.2.2)

/-- R141 holds here for our commit number n. -/
def State.writeFlushed (s : State) (n : Nat) : Bool := !s.unflushed (n + 1) (fun _ => true)

/-- SYNC (R418): a request is answered once the write is flushed here; a reply lets the forwarder count it as flushed. -/
def execSync (s : State) : Out :=
  let ready (m : Rfp) : Bool := decide (beAt m.body 0 1 ≠ 0) || (match s.doneCommit m.srcUid (beAt m.body 1 8) with
    | some n => s.writeFlushed n
    | none => true)
  outcome true (match s.takeRfp 11 ready with
    | none => s
    | some (m, t) =>
      let n := beAt m.body 1 8
      if beAt m.body 0 1 = 0 then
        State.streamSend { t with fab := { t.fab with fwdDone := t.fab.fwdDone.filter (fun e => !(e.1 == m.srcUid && e.2.1 == n)) } }
          m.srcUid 11 ([1#8] ++ beOctets 8 n)
      else { t with fab := { t.fab with fwds := t.fab.fwds.filter (fun f => !(f.commit == n && f.uid == m.srcUid)) } })

/-! ## Replication (R419 to R421) -/

/-- REPLACK to an executor (Table 13-2). -/
def State.replAck (s : State) (uid : BitVec 64) (gen commit result : Nat) : State :=
  s.streamSend uid 9 (beOctets 8 gen ++ beOctets 8 commit ++ [BitVec.ofNat 8 result])

/-- A record whose octets have all come is prepared. -/
def Prepared.whole (p : Prepared) : Bool := decide (p.total = noValue) || decide (p.total ≤ p.value.length)

/-- The first message of a record. -/
def preparedOf (src : BitVec 64) (o : Octets) : Prepared :=
  let n := beAt o 18 2
  let len := itemsLength n (o.drop 26)
  let record := slice o (26 + len) 272
  { src, gen := beAt o 0 8, commit := beAt o 8 8, bucket := beAt o 16 2, nsid := beAt o 24 2
    items := (splitItems n (o.drop 26)).filterMap (itemOf (recordKey record)), record, total := beAt o 20 4
    value := o.drop (26 + len + 272) }

/-- REPL (R419 steps 2 and 4): a record is kept and answered PREPARED, STALEGEN or NOTSERVING; an apply mark applies what is
prepared for the bucket up to its commit number, and waits for what cannot be applied yet (R28, R55). -/
def execRepl (s : State) : Out :=
  outcome true (match s.takeRfp 8 (fun _ => true) with
    | none => s
    | some (m, t) =>
      let gen := beAt m.body 0 8
      let commit := beAt m.body 8 8
      let bucket := beAt m.body 16 2
      match beAt m.body 18 2 with
      | 0 =>
        let due (p : Prepared) : Bool := p.src == m.srcUid && p.bucket == bucket && decide (p.commit ≤ commit)
        let r := t.applyWhere due
        if r.2 then r.1 else (s.applyWhere due).1
      | 0xFFFF =>
        (match t.fab.prepared.find? (fun p => p.src == m.srcUid && p.commit == commit && p.bucket == bucket) with
        | none => t
        | some p =>
          let q := { p with value := p.value ++ m.body.drop 20 }
          let u : State := { t with fab := { t.fab with prepared := modFirst (fun k => decide (k = p)) (fun _ => q) t.fab.prepared } }
          if q.whole then u.replAck m.srcUid gen commit 0 else u)
      | _ =>
        let p := preparedOf m.srcUid m.body
        let a := t.recordActor 0 p.nsid p.record []
        let p := { p with die := a.die }
        let region := regionOf a.stemHash
        if gen ≠ t.genNo then (t.bumpFab 5).replAck m.srcUid gen commit 1
        else if !t.ownServe.getLsbD region then t.replAck m.srcUid gen commit 2
        else
          let u : State := { t with fab := { t.fab with prepared := t.fab.prepared ++ [p] } }
          if p.whole then u.replAck m.srcUid gen commit 0 else u)

/-- REPLACK (R419 step 3, R420): a PREPARED or NOTSERVING answer ends the wait for that replica, STALEGEN ends the write. -/
def execReplack (s : State) : Out :=
  outcome true (match s.takeRfp 9 (fun _ => true) with
    | none => s
    | some (m, t) =>
      let n := beAt m.body 8 8
      if t.fab.waits.any (fun w => w.commit == n && w.waiting.contains m.srcUid) then
        if beAt m.body 16 1 = 1 then t.failWait n
        else (t.modWait n (fun l => l.filter (fun u => u != m.srcUid))).settleWait n
      else t)

/-- APPLY_MARK (R419 step 4): the marks owed to a replica are sent. -/
def execApplyMark (uid : BitVec 64) (s : State) : Out :=
  let due := s.fab.marks.filter (fun e => e.1 == uid)
  let t : State := { s with fab := { s.fab with marks := s.fab.marks.filter (fun e => e.1 != uid) } }
  outcome true (due.foldl (fun s e => s.streamSend uid 8 (replHead s.genNo e.2.1 e.2.2 ++ beOctets 2 0)) t)

/-- COPY (R414): a record of a snapshot or of a journal is applied; the end of the last executor's copy sets FILLDONE. -/
def execCopy (s : State) : Out :=
  outcome true (match s.takeRfp 10 (fun _ => true) with
    | none => s
    | some (m, t) =>
      let commit := beAt m.body 3 8
      if beAt m.body 2 1 = copyEnd ∨ beAt m.body 2 1 = journalEnd then
        let u := if beAt m.body 2 1 = copyEnd then t.dropUnfilled m.srcUid else t
        let left := u.fab.fillFrom.filter (fun k => k != m.srcUid)
        let done := decide (left = []) && u.fab.fillFrom.contains m.srcUid
        let v : State := { u with fab := { u.fab with fillFrom := left, fillDone := u.fab.fillDone || done } }
        whenDo (s.wot.resumed && !s.reqHolds) s (if done then v.ownChanged else v)
      else
        let key (p : Prepared) : Bool := p.src == m.srcUid && p.commit == commit && decide (p.gen = 2 ^ 64)
        let first : Prepared := preparedOf m.srcUid (zeros 7 ++ m.body)
        let first : Prepared := { first with gen := 2 ^ 64, commit := commit, bucket := beAt m.body 0 2 }
        let held : Option Prepared := if beAt m.body 11 2 = 0xFFFF then
            (t.fab.prepared.find? key).map (fun p => { p with value := p.value ++ m.body.drop 13 })
          else some first
        match held with
        | none => t
        | some p =>
          let u : State := { t with fab := { t.fab with prepared := t.fab.prepared.filter (fun k => !key k) } }
          if p.whole then whenDo (s.recordReady p.nsid p.record p.value?) s (u.applyRecord p.nsid p.items p.record p.value?)
          else { u with fab := { u.fab with prepared := u.fab.prepared ++ [p] } })

/-- STEM_RESOLVE (R421): the records of the bucket that are prepared and not applied are applied in the earlier executor's
commit order; commands of its stems may then run. -/
def execStemResolve (bucket : Nat) (s : State) : Out :=
  let r := s.applyWhere (fun p => p.bucket == bucket && p.whole && decide (p.gen < 2 ^ 64))
  let t := r.1
  outcome (Wf.bucket bucket) (whenDo (s.fab.unresolved.contains bucket) s
    (if r.2 then { t with fab := { t.fab with unresolved := t.fab.unresolved.filter (fun b => b != bucket) } } else t))

/-! ## Streams (R401) -/

/-- An unacknowledged stream message sent again. -/
def State.resendStream (s : State) (uid : BitVec 64) (e : Nat × Nat × Octets) : State :=
  match s.addrOf uid with
  | none => s
  | some a => s.rfpSend uid e.2.1 a e.1 e.2.2

/-- RFP_ACK (R401): covered messages are done; one at least 3 below a covered one is lost and sent again (R105). -/
def execRfpAck (s : State) : Out :=
  outcome true (match s.takeRfp 12 (fun _ => true) with
    | none => s
    | some (m, t) =>
      let top := beAt m.body 2 6
      let map := beAt m.body 8 8
      let covered (n : Nat) : Bool := decide (n = top) || (decide (n < top) && decide (top - 1 - n < 64) && map.testBit (top - 1 - n))
      let p := t.peer m.srcUid
      let left := p.unacked.filter (fun e => !covered e.1)
      let marks := (p.unacked.filter (fun e => covered e.1 && decide (e.2.1 = 8) && decide (beAt e.2.2 18 2 = 0))).map (fun e => beAt e.2.2 8 8)
      let lost := left.filter (fun e => decide (e.1 + 3 ≤ top))
      lost.foldl (fun s e => s.resendStream m.srcUid e) (t.setPeer { p with unacked := left, expiries := 0, applied := marks.foldl max p.applied }))

/-- RFP_RETX_TIMEOUT (R401): every unacknowledged message of the stream is sent again. -/
def execRfpRetxTimeout (uid : BitVec 64) (s : State) : Out :=
  let p := s.peer uid
  outcome true (whenDo (decide (p.unacked ≠ [])) s
    (p.unacked.foldl (fun s e => s.resendStream uid e) (s.setPeer { p with expiries := p.expiries + 1 })))

end Sys2Proof.Machine
end

