-- ==== Sys2Proof/Machine/Functions.lean ====
section
/-! DEFINITION. Functions (15): stop, change, restart (R454 to R458). A stop and a restart each end by their own row when
the conditions of Table 15-6 hold. -/

namespace Sys2Proof.Machine

/-! ## Records of the package tables (R333, R355) -/

/-- Package tables are written to the logs of every store die in service (R333). -/
def State.logTables (s : State) (commit : Nat) (items : List EffItem) : State :=
  { s with
    dies := tabMapAll (fun _ => {}) (fun _ d => if d.live then d.logRecord commit tableNsid items else d) s.dies
    tables := { s.tables with changedAt := max s.tables.changedAt commit } }

/-- A change of the package tables waits while no store die can record it yet (R33, R40). -/
def State.tablesWait (s : State) : Bool := !s.mode.mounted && !(upto 4).any (fun d => (s.die d).live)

/-! ## Handler slots (R156 to R159, R234 to R236) -/

/-- Some command that has not ended uses the image in force of slot op (R159). -/
def State.imageUsed (s : State) (op : Nat) : Bool :=
  s.eng.cmds.any (fun c => decide (c.opcode = op) && c.open_ && decide (c.image = (s.hslot op).image) &&
    decide (c.entry.imageId = (s.hslot op).entry.imageId))

/-- The extents of an image in the home part of every store die in service (R330); none when one has no room (R28). -/
def State.placeImage (s : State) (table slot commit : Nat) (ws : List W32) : Option State :=
  let o : Owner := .image table slot
  let value := ws.flatMap (fun w => leOctets 4 w.toNat)
  if (upto 4).all (fun d => !(s.die d).live || ((s.die d).extentRef 1024).isSome) then
    some ((upto 4).foldl (fun s d => if (s.die d).live then s.modDie d (fun x => match x.extentRef 1024 with
      | some ref => x.addExtent { ref, owner := o, nsid := tableNsid, commit, chunk0 := 0, value, current := true }
      | none => x) else s) s)
  else none

/-- A slot is bound, or with no image emptied: LOADS counts, the older image stays while commands use it, the change is
recorded and HT_BIND raised (R67, R159, R234, R235). LOADS wraps at 2^32 (DESIGN CHOICE, log 117). -/
def State.bindSlot (s : State) (commit op : Nat) (entry : HEntry) (image : Option Image) : State :=
  let h := s.hslot op
  let entry' : HEntry := { entry with loads := (h.entry.loads + 1) % 2 ^ 32 }
  let older : Option (W32 × Image) := match h.image with
    | some i => if s.imageUsed op then some (h.entry.imageId, i) else none
    | none => none
  let h' : HSlot := { entry := entry', image := image, older := older }
  let t := (s.setHslot op h').logTables commit [.tableHandler op h']
  t.raiseAt 0x0015 (srcOf 0x16 0) commit (op + 256 * bit01 (!entry.valid)) entry.imageId.toNat

/-! ## What a function owns (Table 15-6) -/

/-- The arbiters of function n. -/
def fnArbs (n : Nat) : List Nat :=
  if n = 0 then
    ((upto 4).flatMap (fun d => (upto 32).map (fun i => placeOf (d + 1) 0 0 0x0C i))) ++
    ((upto 8).map (fun i => placeOf 0 0 0 0x0D i)) ++
    ((upto 4).flatMap (fun d => (upto 2).map (fun i => placeOf (d + 1) 0 0 0x0D i)))
  else if 33 ≤ n ∧ n ≤ 48 then (upto 16).map (fun i => placeOf ((n - 33) / 4 + 1) ((n - 33) % 4) 0 0x0B i)
  else if n = 50 then (upto 16).map bankArb
  else []

/-- The function that owns the settings of an arbiter. -/
def arbFn (p : Nat) : Nat :=
  match Wf.placeClass p with
  | 0x0B => 33 + globalRegion (Wf.placeDie p - 1) (Wf.placeRegion p)
  | 0x0E => 50
  | _ => 0

/-- SHUT set on every arbiter of function n by the stop sequence. -/
def State.shutFn (s : State) (n : Nat) : State := (fnArbs n).foldl (fun s p => s.modArb p (fun a => { a with shut := true })) s

/-- Every arbiter of function n reads DRAINED. -/
def State.fnDrained (s : State) (n : Nat) : Bool := (fnArbs n).all (fun p => decide (s.dstate p = 2))

/-! ## Stop and start (R455, R456) -/

/-- STOPPING begins at commit number `commit`: FN_STOP; a PACKAGE stop puts the package in REPROGRAM. -/
def State.fnStop (s : State) (n commit : Nat) : State :=
  let t := s.modFn n (fun f => { f with state := .stopping, stopAt := commit, restartPending := false, stopPending := false })
  let t := t.raiseAt 0x0012 (srcOf 0x16 0) commit n 0
  if n = 0 ∧ t.mode.mode ≠ Mode.reprogram then
    State.toModeAt { t with mode := { t.mode with stopFrom := t.mode.mode } } .reprogram commit
  else t

/-- STARTING begins: a REGION with RETRAIN trains its channels anew (Table 15-7). -/
def State.fnStart (s : State) (n commit : Nat) : State :=
  let f := s.fn n
  let t := s.modFn n (fun f => { f with state := .starting, startAt := commit, restartPending := false })
  if 33 ≤ n ∧ n ≤ 48 ∧ f.retrain then
    t.modDie ((n - 33) / 4) (fun d => (upto 16).foldl (fun d c =>
      d.modChannel ((n - 33) % 4 * 16 + c) (fun ch => { ch with trained := ch.retired && ch.trained, trainEnded := ch.retired })) d)
  else t

/-- A write of FN_CTRL n that is accepted (Tables 15-7, 15-9). -/
def State.fnWrite (s : State) (n : Nat) (value : W32) (commit : Nat) : State :=
  let on := value.getLsbD 0
  let t := s.modFn n (fun f => { f with enable := on, retrain := value.getLsbD 1 })
  match (s.fn n).state, on with
  | .running, false => t.fnStop n commit
  | .running, true => t
  | .stopping, false => t.modFn n (fun f => { f with restartPending := false })
  | .stopping, true => t.modFn n (fun f =>
      { f with restartPending := true, startAt := if f.restartPending then f.startAt else commit })
  | .stopped, false => t
  | .stopped, true => t.fnStart n commit
  | .starting, false => t.modFn n (fun f =>
      { f with stopPending := true, nextStop := if f.stopPending then f.nextStop else commit })
  | .starting, true => t.modFn n (fun f => { f with stopPending := false })

/-- The stop's conditions of Table 15-6 other than the arbiters'. -/
def State.fnQuiet (s : State) (n : Nat) : Bool :=
  let at_ := (s.fn n).stopAt
  if n = 0 then s.eng.cmds.all (fun c => decide (at_ ≤ c.commit))
  else if 33 ≤ n ∧ n ≤ 48 then
    s.eng.cmds.all (fun c => !(decide (c.region = n - 33) && decide (c.commit < at_) &&
      (c.open_ || decide (c.holdErase ≠ []))))
  else if n = 50 then
    s.eng.cmds.all (fun c => !(clsSelects c.entry.cls && decide (c.commit < at_) && c.open_)) && s.sel.appliedBelow at_
  else true

/-- FN_STOP_COMPLETE (R455, R457): once the other conditions hold the shutters of REGION and SELECTION arbiters are set; with
every arbiter DRAINED the function is STOPPED, or STARTING when a restart is pending. -/
def execFnStopComplete (fn : Nat) (s : State) : Out :=
  let shuts := decide (fn ≠ 0)
  let t := if shuts then s.shutFn fn else s
  let f := s.fn fn
  let stopped := t.modFn fn (fun f => { f with state := .stopped })
  outcome (Wf.fn fn) (whenDo (decide (f.state = FnState.stopping) && s.fnQuiet fn) s
    (if shuts && !t.fnDrained fn then t
     else if f.restartPending then stopped.fnStart fn f.startAt else stopped))

/-! ## The end of a restart (R456, R457) -/

/-- A MAC that its group's width no longer uses has no rings, no queues and no timestamps (R364). -/
def Mac.absent (m : Mac) : Mac :=
  { m with rings := [], queues := [], waiting := [], xoff := [], pauseSent := false, pauseDue := [], paused := [], tsq := [], tsLost := 0 }

/-- The settings of a port group's MACs come in force; a changed link mode or lane map retrains the links (R367, R466). -/
def State.restartGroup (s : State) (g : Nat) : State :=
  let old := s.group g
  let lanes := sumOf (fun k => (tabGet (fun l => BitVec.ofNat 8 (l % 4 * 5)) s.otp.laneMap (4 * g + k)).toNat * 2 ^ (8 * k)) (upto 4)
  let oldMap := old.laneMap.getD (w32 (sumOf (fun k => k * 5 * 2 ^ (8 * k)) (upto 4)))
  let retrain := decide (field old.cfg 0 5 ≠ field old.live 0 5) || decide (oldMap ≠ w32 lanes)
  let t := if retrain then
      let u := (upto 4).foldl (fun s k => s.linkLost (4 * g + k) 3) s
      (upto 4).foldl (fun s k => s.modLane (4 * g + k) (fun l =>
        if l.mapped then l else { l with inService := false, lock := false, retraining := true })) u
    else s
  let t := t.modGroup g (fun x => { x with live := x.cfg, laneMap := some (w32 lanes) })
  let t := (upto 4).foldl (fun s k => s.modMac (4 * g + k) (fun m => { m with live := m.cfg })) t
  let gone := (upto 4).filter (fun k => s.macPresent (4 * g + k) && !t.macPresent (4 * g + k))
  let t := gone.foldl (fun s k => s.modMac (4 * g + k) Mac.absent) t
  t.settleFlow

/-- A retired bank's entries move to new rows, in ascending order of their old index, by the rule of R250 (R266). One that finds no
free row stays where it is, and searches still match it (DESIGN CHOICE, log 102). -/
def State.moveBank (s : State) (b commit : Nat) : State :=
  let old := s.sel.copies.filter (fun e => decide (bankOf e.1 = b) && rowValid e.2)
  let t := old.foldl (fun s e =>
    let r := e.2
    let gone : SelChange := .remove e.1
    match s.sel.place (rowStem r) with
    | some i =>
      let new : SelChange := .write i (rowReq r) (rowStem r) (rowPrio r) (rowHandle r)
      let t := s.logRows commit (gone.items s.sel ++ new.items s.sel)
      { t with sel := (t.sel.change gone).change new }
    | none => s) s
  t.modBank b (fun k => { k with moved := true })

/-- The staged changes of a stopped handler table come in force at the restart's commit number (R236), their images placed in the
home parts (R330); none while one has no room (R28). -/
def State.restartHandlers (s : State) (commit : Nat) : Option State :=
  let t := s.eng.hstaged.foldl (fun acc h => acc.bind (fun s =>
    let placed := match h.image with
      | some (.words ws) => s.placeImage 1 h.slot commit ws
      | some (.factory _) | none => some s
    placed.map (fun t => t.bindSlot commit h.slot h.entry h.image))) (some s)
  t.map (fun t => { t with eng := { t.eng with hstaged := [] } })

/-- Every changed slot holds at most one image: no command from before the stop uses an image that goes (R236). -/
def State.handlersFree (s : State) : Bool :=
  let at_ := (s.fn 49).stopAt
  s.eng.hstaged.all (fun h => (s.hslot h.slot).older.isNone &&
    s.eng.cmds.all (fun c => !(decide (c.opcode = h.slot) && decide (c.commit < at_) && c.open_)))

/-- The channels of a region have ended the training that RETRAIN asked for. -/
def State.regionTrained (s : State) (g : Nat) : Bool :=
  (upto 16).all (fun c => ((s.die (g / 4)).channel (g % 4 * 16 + c)).trainEnded)

/-- The restart of function n may end. -/
def State.fnMayRun (s : State) (n : Nat) : Bool :=
  if 33 ≤ n ∧ n ≤ 48 then !(s.fn n).retrain || s.regionTrained (n - 33)
  else if n = 49 then s.handlersFree && (s.restartHandlers (s.fn 49).startAt).isSome
  else true

/-- The settings of function n come in force, every arbiter count at 0 (R457). -/
def State.fnSettings (s : State) (n : Nat) : State :=
  let t := (fnArbs n).foldl (fun s p => s.modArb p (fun a => a.restart p)) s
  if n = 0 then { t with fab := { t.fab with ctrlLive := t.fab.ctrl } }
  else if n ≤ 32 then t.restartGroup (n - 1)
  else if n ≤ 48 then t.modDie ((n - 33) / 4) (fun d => d.modRegion ((n - 33) % 4) (fun r => { r with live := r.cfg }))
  else if n = 49 then (t.restartHandlers (s.fn 49).startAt).getD t
  else
    let u := (upto 16).foldl (fun s b => if (s.bank b).retired && !(s.bank b).moved then s.moveBank b (s.fn 50).startAt else s) t
    u.settleSel

/-- FN_RESTART_COMPLETE (R455 to R457): PACKAGE arbiters are shut and drained only now; the settings come in force and
FN_START is recorded with t; a pending stop begins in the same cycle, else a PACKAGE restart ends REPROGRAM. Commands that
waited for bindings take them (R236). -/
def execFnRestartComplete (fn : Nat) (s : State) : Out :=
  let t := if fn = 0 then s.shutFn 0 else s
  let f := s.fn fn
  let u := (t.fnSettings fn).modFn fn (fun f => { f with state := .running })
  let u := u.raiseAt 0x0013 (srcOf 0x16 0) f.startAt fn 0
  let back := if s.mode.stopFrom = Mode.drain then Mode.drain else u.servingMode
  outcome (Wf.fn fn) (whenDo (decide (f.state = FnState.starting) && s.fnMayRun fn) s
    ((if decide (fn = 0) && !t.fnDrained 0 then t
      else if f.stopPending then u.fnStop fn f.nextStop
      else if fn = 0 then u.toModeAt back f.startAt
      else u).settleBound.tellLsa s))

end Sys2Proof.Machine
end

