-- ==== Sys2Proof/Machine/Media.lean ====
section
/-! DEFINITION. Failures of blocks, flash dies and channels (R317 to R321, R470, R474), end-of-life without free superblocks
(R300), wear and reclaim scores (R308, R311). -/

namespace Sys2Proof.Machine

/-! ## Failures -/

/-- A retirement is recorded on the media (R332, R474). -/
def State.logRetire (s : State) (d place block : Nat) : State :=
  let p := w32 (s.fullPlace place)
  s.modDie d (fun x => { (x.logRecord s.commitNow tableNsid [.retire p block]) with retired := x.retired ++ [(p, block)] })

/-- Block b fails (R317, R318): retired at once; a superblock with chunks not yet verified is abandoned. Cause 1 program,
2 erase, 3 verify. -/
def State.blockFail (s : State) (d b cause : Nat) : State :=
  let g := s.geo
  let flash := b / 16384
  let ch := flash / 16
  let t := s.modDie d (fun x => x.modBlock b (fun k => { k with bad := true }))
  let t := t.logRetire d (flashPlace d flash) (b % 16384)
  let t := t.raise 0x0202 (srcOf 0x04 (d * 64 + ch)) (t.fullPlace (flashPlace d flash)) (b % 16384) cause 0
  let t := t.modDie d (fun x => match x.superOf b with
    | some k => if cause = 2 then x else x.abandon g k
    | none => x)
  (t.settleCapacity d (ch / 16)).settleCauses

/-- A flash die fails (R273, R276, R318). Cause 1 training, 2 reset timeout. -/
def State.flashFail (s : State) (d f cause : Nat) : State :=
  if ((s.die d).flashDie f).failed then s
  else
    let r := f / 256
    let t := s.modDie d (fun x => x.modFlash f (fun k => { k with failed := true, resetting := false }))
    let t := (t.raise 0x0123 (srcOf 0x04 (d * 64 + f / 16)) (t.fullPlace (flashPlace d f)) cause 0 0).setAlert 2 true
    let t := t.logRetire d (flashPlace d f) 0xFFFFFFFF
    let t := t.modDie d (fun x => x.abandonOn t.geo r (fun k => decide (k = f)))
    (t.settleCapacity d r).settleCauses

/-- A flash channel is retired (R319): an erasure in every stripe of its region. -/
def State.channelRetire (s : State) (d ch : Nat) : State :=
  if ((s.die d).channel ch).retired then s
  else
    let r := ch / 16
    let n := ((s.die d).channel ch).fails
    let t := s.modDie d (fun x => x.modChannel ch (fun c => { c with retired := true, trained := false, trainEnded := true }))
    let t := (t.raise 0x0121 (srcOf 0x04 (d * 64 + ch)) n 0 0 0).setAlert 2 true
    let t := (t.maskUnit (channelPlace d ch)).logRetire d (channelPlace d ch) 0xFFFFFFFF
    let t := t.modDie d (fun x => x.abandonOn t.geo r (fun k => decide (k / 16 = ch)))
    (t.settleCapacity d r).settleCauses

/-- A channel operation fails (R470): cause 1 timeout, 2 re-centring, 3 unread; the eighth in 10 s retires the channel. -/
def State.channelFail (s : State) (d ch flash cause retries : Nat) : State :=
  let c := (s.die d).channel ch
  if c.retired then s
  else
    let w := s.windowNo win10s
    let n := countIn c.fails c.window w
    let t := s.modDie d (fun x => x.modChannel ch (fun c => { c with fails := n, window := w }))
    let t := t.raise 0x0120 (srcOf 0x04 (d * 64 + ch)) (t.fullPlace (flashPlace d flash)) cause n retries
    if 8 ≤ n then t.channelRetire d ch else t

/-- End-of-life of a region that has no free superblock while no closed one holds a stale chunk (R300). -/
def State.settleFull (s : State) (d r : Nat) : State :=
  let x := s.die d
  let stale := (x.regionSupers r).any (fun e => e.2.closed && (x.superSlots e.2).any x.stale)
  if decide (x.freeSupers s.geo r = 0) && !stale && x.live then s.endOfLife d r else s

/-! ## Spread and reclaim scores (R308, R311) -/

/-- Erase counts of the good blocks of region r: the number of blocks, their sum, the highest and the lowest. -/
def Die.wear (d : Die) (g : Geo) (r : Nat) : Nat × Nat × Nat × Nat :=
  let total := sumOf (fun p => sumOf (fun c => if d.erased (r * 16 + c) p then 0 else d.goodBlocks g.bpp ((r * 16 + c) * 16 + p))
    (upto 16)) (upto g.dies)
  let listed := d.blocks.filter (fun e => decide (e.1 / 4194304 = r) && !e.2.bad && decide (e.2.erases ≠ 0) &&
    !d.erased (e.1 / 262144) (e.1 / 16384 % 16))
  let sum := sumOf (fun e => e.2.erases) listed
  let high := listed.foldl (fun m e => max m e.2.erases) 0
  let low := if listed.length < total then 0 else listed.foldl (fun m e => min m e.2.erases) high
  (total, sum, high, low)

/-- Sum of the erase counts of a superblock's blocks, and their number. -/
def Die.superWear (d : Die) (x : Super) : Nat × Nat :=
  let bs := x.blockList
  (sumOf (fun b => (d.block b).erases) bs, bs.length)

/-- The score of R308 with 16 fraction bits. -/
def Die.score (d : Die) (g : Geo) (x : Super) : Int :=
  let one := 65536
  let live := (d.region x.region).live
  let total := 14 * g.stripes x.slc
  let ageDays := field live.reclaim 8 8
  let stale := (total - d.validCount x) * one / total
  let age := min ((g.now - x.closeTime) * one / (86400 * 1000000000)) (ageDays * one)
  let weight := one + field live.reclaim 0 8 * age / (64 * ageDays)
  let own := d.superWear x
  let all := d.wear g x.region
  let above : Int := ((own.1 * one / max 1 own.2 : Nat) : Int) - ((all.2.1 * one / max 1 all.1 : Nat) : Int)
  let wear := (if 0 < above then above else 0) * (field live.reclaim 16 8 : Nat) / 25600
  ((stale * weight / one : Nat) : Int) - wear

/-- A closed superblock that internal work may choose: not emptied, no copy of its chunks under way, not of a retained
epoch (R342), nor at an offline position (R321). -/
def Die.choosable (d : Die) (x : Super) : Bool :=
  x.closed && !d.offlineAt x && x.emptied.isNone && !d.pinned x && !(d.superSlots x).any (fun e => d.copying e.1 || !e.2.settled)

/-- The element of highest score, the first of equals. -/
def bestOf {α : Type} (score : α → Int) : List α → Option α
  | [] => none
  | x :: rest =>
    match bestOf score rest with
    | none => some x
    | some y => if score x < score y then some y else some x

/-- Levelling starts above SPREAD and stops at SPREAD − 100 × RESUME or below (R311). -/
def Die.settleSpread (d : Die) (g : Geo) (r : Nat) : Die :=
  let w := d.wear g r
  let spread := w.2.2.1 - w.2.2.2
  let live := (d.region r).live
  let limit := field live.wear 0 12
  d.modRegion r (fun x => { x with
    levelling := if limit < spread then true else if spread ≤ limit - 100 * field live.wear 12 4 then false else x.levelling })

/-- Work of a region that may have closed a superblock: the spread is sampled at a close, and R300 is judged. -/
def State.afterWork (s : State) (d r : Nat) (before : Die) : State :=
  let closed (x : Die) : Nat := ((x.regionSupers r).filter (fun e => e.2.closed)).length
  let t := if closed (s.die d) = closed before then s else s.modDie d (fun x => x.settleSpread s.geo r)
  t.settleFull d r

end Sys2Proof.Machine
end

