-- ==== Sys2Proof/Machine/MediaRows.lean ====
section
/-! DEFINITION. The commands of the flash channels, of the drains and of the internal work of a region (09, 10, 11). -/

namespace Sys2Proof.Machine

/-! ## Training and re-centring (R268 to R274) -/

/-- Speeds of the bins in MT/s (Table 9-3). -/
def binSpeeds : List Nat := [800, 1200, 1600, 2400, 3200, 3600, 4000, 4400, 4800]

/-- The target bin (R271). -/
def targetBin (maxBin : Nat) (ids : List DieId) : Nat :=
  ids.foldl (fun m i => min m i.maxBin) ((binSpeeds.filter (fun v => decide (v ≤ maxBin))).length - 1)

/-- The lowest bin that a training left a target at; none when every target failed. -/
def trainedBin (rs : List Trained) : Option Nat :=
  rs.foldl (fun m r => match r, m with
    | .bin b, some k => some (min b k)
    | .bin b, none => some b
    | .failed, m => m) none

/-- Number of targets that D dies per channel populate: die position = chip enable × 4 + LUN (R268). -/
def targetsOf (dies : Nat) : Nat := ceilDiv dies 4

/-- Bits of the capacity that Table 9-1 allows: N_Q × BPP at most 2^22. -/
def maxPages : Nat := 4194304

/-- A die meets Table 9-1 and matches a media profile (R267). -/
def State.dieUsable (s : State) (i : DieId) : Bool :=
  i.good && decide (i.nq % 4 = 0) && decide (256 ≤ i.nq) && decide (i.nq ≤ 4092) && decide (i.bpp ≤ 16384) &&
  decide (i.nq * i.bpp ≤ maxPages) && decide (18432 ≤ i.ppSize) && (s.profileFor i.id).isSome

/-- The dies of a channel that are used (R267). -/
def State.usedIds (s : State) (ids : List DieId) : List DieId := ids.filter s.dieUsable

/-- The used dies stand at positions 0 to D − 1, D is one of R268, and they share profile and geometry. -/
def State.diesGood (s : State) (ids : List DieId) : Bool :=
  let u := s.usedIds ids
  let n := u.length
  decide (ids.take n = u) && decide (n = 1 ∨ n = 2 ∨ n = 4 ∨ n = 8 ∨ n = 16) &&
  (match u with
  | a :: rest => rest.all (fun i => decide (s.profileFor i.id = s.profileFor a.id) && decide (i.nq = a.nq) &&
      decide (i.bpp = a.bpp) && decide (i.ppSize = a.ppSize))
  | [] => false)

/-- A channel whose dies differ from those of channel 0 of store die 0 in position, identity or geometry (R268); identity is the
profile that they match. A channel 0 with no usable die differs from every channel that has one (DESIGN CHOICE, log 118). -/
def State.channelDiffers (s : State) (d ch : Nat) : Bool :=
  let a := (s.die 0).channel 0
  let c := (s.die d).channel ch
  let prof (k : Channel) : Option Octets := s.profileFor (tabGet (fun _ => []) k.ids 0)
  a.trainEnded && c.trainEnded && !c.retired && (decide (c.dies ≠ a.dies) || decide (prof c ≠ prof a) ||
    decide (c.nq ≠ a.nq) || decide (c.bpp ≠ a.bpp) || decide (c.ppSize ≠ a.ppSize))

/-- Deskew and eye readings of a training stored by their key (R528). -/
def Channel.readings (c : Channel) (l : List Deskew) : Channel :=
  { c with desk := l.foldl (fun t k => tabSet (fun _ => { key := 0, ui := 0, fine := 0, eye := 0 }) t k.key k) c.desk }

/-- What a target of a training came to: a target listed with no result has failed, and training only lowers the bin that it
started from (Table 9-4 step 7). -/
def resultOf (rs : List Trained) (top k : Nat) : Trained :=
  match rs.getD k .failed with
  | .bin b => .bin (min b top)
  | .failed => .failed

/-- The dies of a target fail (R273). -/
def State.targetFail (s : State) (d ch k : Nat) : State :=
  ((upto 4).filter (fun l => decide (4 * k + l < ((s.die d).channel ch).dies))).foldl (fun s l => s.flashFail d (ch * 16 + 4 * k + l) 1) s

/-- A target whose dies have all failed. -/
def State.targetGone (s : State) (d ch k : Nat) : Bool :=
  (upto 4).all (fun l => decide (((s.die d).channel ch).dies ≤ 4 * k + l) || ((s.die d).flashDie (ch * 16 + 4 * k + l)).failed)

/-- A training's results for the targets of a channel that have not failed: the bin the others passed at, the dies of a failed
target failed dies, the channel failed with its last target (R272 to R274). -/
def State.trainedTo (s : State) (d ch top : Nat) (rs : List Trained) (old : Nat) : State :=
  let ks := (upto (targetsOf ((s.die d).channel ch).dies)).filter (fun k => !s.targetGone d ch k)
  let used := ks.map (fun k => (k, resultOf rs top k))
  match trainedBin (used.map (fun u => u.2)) with
  | none => s.channelRetire d ch
  | some b =>
    let centred (c : Channel) : Tab Nat := ks.foldl (fun t k => tabSet (fun _ => 0) t k s.clock.cycles) c.centred
    let t := s.modDie d (fun x => x.modChannel ch (fun c => { c with bin := b, trained := true, centred := centred c }))
    let t := if b = old then t else t.raise 0x0122 (srcOf 0x04 (d * 64 + ch)) old b 0 0
    (used.filter (fun u => decide (u.2 = Trained.failed))).foldl (fun s u => s.targetFail d ch u.1) t

/-- No die was read. -/
def noDie : DieId := { id := [], maxBin := 0, good := false }

/-- A flash die as bring-up found it: identity, unique ID, the blocks with a factory mark (R268, R275, R291). -/
def FlashDie.found (f : FlashDie) (i : DieId) : FlashDie :=
  { f with populated := true, power := .active, resetting := false, unique := i.unique,
           marked := i.marked.filter (fun b => decide (b < 16384)) }

/-- The channel as the training of its used dies `ids` leaves it. -/
def State.trainChannel (s : State) (d ch : Nat) (ids : List DieId) (rs : List Trained) (desk : List Deskew) : State :=
  let first := ids.headD noDie
  let profile := (s.profileFor first.id).getD []
  let target := targetBin (leAt profile 16 2) ids
  let n := ids.length
  let t := s.modDie d (fun x =>
    let x := x.modChannel ch (fun c => { c.readings desk with
      tbin := target, dies := n, trainEnded := true, nq := first.nq, bpp := first.bpp, ppSize := first.ppSize
      ids := (upto n).foldl (fun t i => tabSet (fun _ => []) t i (ids.getD i noDie).id) [] })
    let x : Die := if ch = 0 then { x with ez64 := first.ezRoot } else x
    (upto n).foldl (fun x i => x.modFlash (ch * 16 + i) (fun f => f.found (ids.getD i noDie))) x)
  t.trainedTo d ch target rs target

/-- A capacity that follows from the dies found is taken without an event (R299 records retirements). -/
def State.setCapacity (s : State) (d r : Nat) : State :=
  s.modDie d (fun x => { x with ledger := { x.ledger with
    ds := tabSet (fun _ => 0) x.ledger.ds r (s.dsOf d r), lcap := tabSet (fun _ => 0) x.ledger.lcap r (s.lcapOf d r) } })

/-- CHANNEL_TRAINING_DONE (R267, R268, R271 to R273): identity, geometry, bin and deskew are taken; a channel whose dies do not
fit, or that fails at bin 0 on every target, is retired; a single target that fails makes its dies failed dies. -/
def execChannelTrainingDone (die ch : Nat) (ids : List DieId) (results : List Trained) (desk : List Deskew) (s : State) : Out :=
  let trained := if s.diesGood ids then s.trainChannel die ch (s.usedIds ids) results desk
    else (s.modDie die (fun x => x.modChannel ch (fun c => { c with trainEnded := true }))).channelRetire die ch
  let check := if die = 0 ∧ ch = 0 then (upto 4).flatMap (fun d => (upto 64).map (fun c => (d, c))) else [(die, ch)]
  let t := check.foldl (fun s e => if s.channelDiffers e.1 e.2 then s.channelRetire e.1 e.2 else s) trained
  outcome (Wf.die die && Wf.channel ch && Wf.desk desk) (whenDo
    (s.mode.mode.trains && !((s.die die).channel ch).trainEnded && !((s.die die).channel ch).retired && !(s.die die).inReset) s
    ((t.settleLinkup).tellLsa s))

/-- RECENTRE (R274): a target that passes step 7 keeps the bin with new readings. One that fails counts as a failure of the
channel, whose bin drops by one with a full training of all its targets; at bin 0 the target's dies fail,
or the channel with its last target (R273). -/
def execRecentre (die ch target : Nat) (result : Recentred) (desk : List Deskew) (s : State) : Out :=
  let c := (s.die die).channel ch
  let read (s : State) : State := s.modDie die (fun x => x.modChannel ch (fun c => c.readings desk))
  let t :=
    if result.passed then (read s).modDie die (fun x => x.modChannel ch (fun c =>
      { c with centred := tabSet (fun _ => 0) c.centred target s.clock.cycles }))
    else
      let t := s.channelFail die ch (ch * 16 + 4 * target) 2 0
      if ((t.die die).channel ch).retired then t
      else if c.bin = 0 then
        t.trainedTo die ch 0 ((upto 4).map (fun k => if k = target then Trained.failed else .bin 0)) 0
      else (read t).trainedTo die ch (c.bin - 1) result.results c.bin
  outcome (Wf.die die && Wf.channel ch && Wf.target target && Wf.desk desk) (whenDo
    (c.trained && !c.retired && decide (target < targetsOf c.dies) && !s.targetGone die ch target && !s.inReset &&
      !decide (s.mode.mode = Mode.holdup)) s (t.tellLsa s))

/-! ## Queues and power states of flash dies (R276 to R278) -/

/-- Flash addresses that the busy media slots of store die d's contexts read. -/
def State.slotReads (s : State) (d : Nat) : List Nat :=
  (s.eng.ctxs.filter (fun e => decide (e.1 / 1024 = d))).flatMap (fun e => match e.2 with
    | some v => v.slots.flatMap (fun k => match k.2 with
        | .busy op _ => (s.die d).opReads op
        | .idle | .done _ => [])
    | none => [])

/-- An operation that starts at once is queued for flash die f: a program not yet verified, or a read of a media slot. -/
def State.flashQueued (s : State) (d f : Nat) : Bool :=
  (s.die d).slots.any (fun e => decide (pcaFlash e.1 = f) && (match e.2 with
    | some t => !t.verified
    | none => false)) || (s.slotReads d).any (fun p => decide (pcaFlash p = f))

/-- The superblock that patrol takes next in a region: the lowest last patrol time among those with a valid chunk (R312). -/
def Die.patrolNext (d : Die) (r : Nat) : Option Nat :=
  ((sortBy (fun e => e.2.lastPatrol) (d.regionSupers r)).find? (fun e => decide (0 < d.validCount e.2))).map (fun e => e.1)

/-- Planned work is queued for flash die f: a superblock with a block there is patrol's next, marked for refresh, or emptied
and to be erased (R277). -/
def Die.planned (d : Die) (f : Nat) : Bool :=
  (d.regionSupers (f / 256)).any (fun e => (d.superSlots e.2).any (fun t => decide (pcaFlash t.1 = f)) &&
    (decide (d.patrolNext (f / 256) = some e.1) || e.2.refresh || e.2.emptied.isSome))

/-- t_next of flash die f in CLKT cycles (R277): its target's next re-centring (R274), and planned work, whose start the spec does
not give: the free value `start`. -/
def State.nextStart (s : State) (d f start : Nat) : Nat :=
  let c := (s.die d).channel (f / 16)
  let due := tabGet (fun _ => 0) c.centred (f % 16 / 4) + 10000000 - s.clock.cycles
  if s.flashQueued d f then 0 else if (s.die d).planned f then min due start else due

/-- The state of Table 9-6 for a time to the next start, in CLKT cycles of 10 ns. -/
def powerFor (t : Nat) : Power := if t < 2000 then .active else if t ≤ 40000 then .idle else .standby

/-- Flash die f moves to the state chosen (R278). -/
def State.settlePower (s : State) (d f : Nat) : State :=
  let a := s.free
  if ((s.die d).flashDie f).populated && !((s.die d).flashDie f).failed then
    a.2.modDie d (fun x => x.modFlash f (fun k => { k with power := powerFor (s.nextStart d f a.1.toNat) }))
  else s

/-- Chip enable of target k of a channel is asserted: some populated die of it is not in STANDBY (Table 9-6). -/
def Die.chipEnable (d : Die) (ch k : Nat) : Bool :=
  (upto 4).any (fun l =>
    let f := d.flashDie (ch * 16 + 4 * k + l)
    f.populated && decide (f.power ≠ .standby))

/-- A die terminates its own transfers, its ODT on, in ACTIVE only (Table 9-6). -/
def FlashDie.odt (f : FlashDie) : Bool := decide (f.power = .active)

/-- The PHY of a channel is held at idle power while every die of it is in STANDBY (R278). -/
def Die.phyIdle (d : Die) (ch : Nat) : Bool := (upto 4).all (fun k => !d.chipEnable ch k)

/-- The exit time that an operation on a die pays, in ns (Table 9-6). -/
def Power.exitNs : Power → Nat
  | .active => 0
  | .idle => 400
  | .standby => 3000

/-- LUN_TIMEOUT (R276): an operation under way on the LUN has timed out; RESET goes to the LUN and the channel counts a failure.
A RESET that times out itself makes the die a failed die (Table 16-1). -/
def execLunTimeout (die flash : Nat) (s : State) : Out :=
  let f := (s.die die).flashDie flash
  let t := if f.resetting then s.flashFail die flash 2
    else (s.modDie die (fun x => x.modFlash flash (fun f => { f with resetting := true }))).channelFail die (flash / 16) flash 1 0
  outcome (Wf.die die && Wf.flash flash) (whenDo
    (f.populated && !f.failed && !s.inReset && (f.resetting || s.flashQueued die flash || (s.die die).planned flash)) s (t.tellLsa s))

/-- DIE_STATE_TICK (R278): every die of the store die's channels moves to the chosen state, and a RESET under way has ended
(R276, log 58). Power states are chosen while the package serves (R4). -/
def execDieStateTick (die : Nat) (s : State) : Out :=
  let fs := (upto 64).flatMap (fun c => (upto ((s.die die).channel c).dies).map (fun p => c * 16 + p))
  let ready := fs.foldl (fun s f => s.modDie die (fun d => d.modFlash f (fun k => { k with resetting := false }))) s
  outcome (Wf.die die) (whenDo (!s.inReset && !decide (s.mode.mode = Mode.holdup)) s
    (if s.mode.mode.serving then fs.foldl (fun s f => s.settlePower die f) ready else ready))

/-! ## Reads (R285, R313 to R315, R470) -/

/-- The number of the first attempt that decoded, with its share. -/
def firstGood : List Attempt → Option (Nat × Nat)
  | [] => none
  | .share c :: _ => some (0, c)
  | .failed :: rest => (firstGood rest).map (fun e => (e.1 + 1, e.2))

/-- The limit of reads of a block before its superblock is marked for refresh (R313). -/
def Die.readLimit (d : Die) (r : Nat) (slc : Bool) : Nat := (if slc then 8 else 1) * field (d.region r).live.patrol 16 16 * 1000

/-- A slot read as its counters and marks see it: a block's read limit, a high share, a retry (R313, R314). -/
def Die.readMarks (d : Die) (pca : Nat) (attempts : List Attempt) (rebuilt : Bool) : Die :=
  let b := pcaBlock pca
  let d := d.countRead b
  match d.superOf b with
  | none => d
  | some k =>
    match d.super k with
    | none => d
    | some x =>
      let share := field (d.region x.region).live.patrol 8 8
      let high := match firstGood attempts with
        | some (0, c) => decide (share * 320 < c * 256)
        | some _ => true
        | none => rebuilt
      if high || decide (d.readLimit x.region x.slc ≤ (d.block b).reads) then d.modSuper k (fun x => { x with refresh := true }) else d

/-- Channel position c holds P or Q of stripe j. -/
def isParity (j c : Nat) : Bool := decide (c = parityChannel j false) || decide (c = parityChannel j true)

/-- How many of the 15 other chunks of a slot's stripe give no octets: those on an erasure, those found unreadable, those whose
attempts, listed in channel order, do not read, and P or Q where an erasure left it absent. A data position that was on an erased
channel when its stripe was written counts as zero and is no loss (R285, R289, R320). Of a superblock in the EZ-64 format only the
attempts tell. -/
def Die.stripeLost (d : Die) (x : Super) (j own : Nat) (stripe : List (List Attempt)) : Nat :=
  let unread (i : Nat) : Bool := match stripe[i]? with
    | some a => (firstGood (a.take 4)).isNone
    | none => false
  (((upto 16).filter (fun c => decide (c ≠ own))).mapIdx (fun i c => (i, c))).countP (fun e =>
    if x.ez then unread e.1
    else match (x.pcaOn j e.2).bind (fun p => (d.slot p).map (fun t => (p, t))) with
      | some u => d.erased (x.region * 16 + e.2) x.pos || u.2.unreadable || unread e.1
      | none => isParity j e.2)

/-- The slot can be rebuilt from its stripe: at most two chunks of it are lost, this one among them (R289), its position is not
offline (R321), and it is no summary, which belongs to no stripe (R288). -/
def Die.rebuilds (d : Die) (pca : Nat) (stripe : List (List Attempt)) : Bool :=
  decide (d.erasures (pcaChannel pca / 16) (pcaPos pca) < 3) &&
  (match d.superOf (pcaBlock pca), d.slot pca with
  | some k, some t => decide (t.kind ≠ .summary) && (match d.super k with
      | some x => decide (d.stripeLost x (pcaSlot pca) (pcaChannel pca % 16) stripe ≤ 1)
      | none => false)
  | _, _ => false)

/-- A read of the slot at `pca` and what it gives: retries, a failure of the channel, the rebuild from the other chunks of its
stripe, or UNREADABLE with MM_LOST (R315, R319, R470). -/
def State.flashRead (s : State) (d pca : Nat) (attempts : List Attempt) (stripe : List (List Attempt)) : State :=
  let x := s.die d
  match x.slot pca with
  | none => s
  | some t =>
    let ch := pcaChannel pca
    let lost := x.erased ch (pcaPos pca)
    if !lost && (firstGood (attempts.take 4)).isSome then s.modDie d (fun x => x.readMarks pca attempts false)
    else
      let ok := x.rebuilds pca stripe
      let u := if lost then s else s.channelFail d ch (pcaFlash pca) 3 3
      let u := u.modDie d (fun x => x.readMarks pca attempts ok)
      if ok then u
      else
        let u := u.modDie d (fun x => x.setSlot pca (some { t with unreadable := true }))
        match x.indexOfPca pca with
        | some i => u.raise 0x0203 (srcOf 0x07 (globalRegion d (ch / 16))) i (x.ownerNow t).toNat 0 0
        | none => u

/-- FLASH_READ_DONE (R285): `attempts` are those of the slot, `stripe` those of its stripe's other chunks in ascending channel
position. An attempt fails when a codeword does not decode or a page's PCRC fails. -/
def execFlashReadDone (die pca : Nat) (attempts : List Attempt) (stripe : List (List Attempt)) (s : State) : Out :=
  outcome (Wf.die die && Wf.pca pca) (whenDo
    (!s.inReset && (s.die die).lunFree pca && (match (s.die die).slot pca with
      | some t => t.verified
      | none => false)) s (((s.flashRead die pca attempts stripe).settlePower die (pcaFlash pca)).tellLsa s))

/-- The attempts listed for a slot; a slot not listed decodes at once without corrections. -/
def attemptsFor (reads : List (Nat × List Attempt)) (p : Nat) : List Attempt :=
  match reads.find? (fun r => r.1 == p) with
  | some r => r.2
  | none => [.share 0]

/-- The attempts of the other 15 chunks of a slot's stripe, in channel order. -/
def Super.stripeReads (x : Super) (pca : Nat) (reads : List (Nat × List Attempt)) : List (List Attempt) :=
  ((upto 16).filter (fun c => decide (c ≠ pcaChannel pca % 16))).map (fun c => match x.pcaOn (pcaSlot pca) c with
    | some p => attemptsFor reads p
    | none => [.share 0])

/-! ## Drains (R293, R334, R339) -/

/-- The slots of an extent's value, in chunk order (R284, R286), for the chunks whose current octets it holds (R336). -/
def State.extentSlots (s : State) (d : Nat) (x : Extent) : List Slot :=
  let die := s.die d
  match ownerHandle x.owner, die.ownerKey x.owner with
  | some h, some k =>
    let kslot := nsKeyslot (s.nsEntry k.1)
    let key := tabGet (fun _ => 0) die.keys kslot
    ((upto (chunksOf x.value.length)).filter (fun i =>
        decide ((die.extentFor x.owner (x.chunk0 + i)).map (fun y => y.ref) = some x.ref))).map (fun i =>
      { handle := h, chunk := x.chunk0 + i, slc := false, sys := false, keyrec := decide (x.chunk0 + i = 0), seq := 0, nsid := k.1
        keyHash := s.keyHashOf k.1 k.2.1, kslot, key, data := slice x.value (i * chunkSize) chunkSize
        record := if x.chunk0 + i = 0 then k.2.2 else [], unreadable := !(x.homeGood || x.mirrorGood) })
  | _, _ => []

/-- The home region of an owner's key. -/
def State.ownerRegion (s : State) (d : Nat) (o : Owner) : Nat :=
  match (s.die d).ownerKey o with
  | some k => regionOf (s.stemHashOf k.1 k.2.1) % 4
  | none => 0

/-- VALUE_DRAIN (R293, R334, R336): the chunks of an extent whose value is current are programmed through the HOST stream, in
the mode that R293 gives; a write waits only for free superblocks. -/
def execValueDrain (die ref : Nat) (toSlc : Bool) (s : State) : Out :=
  outcome (Wf.die die) (
    let d := s.die die
    match d.extents.find? (fun x => x.ref == ref) with
    | none => s
    | some x =>
      let g := s.geo
      let r := s.ownerRegion die x.owner
      let slots := s.extentSlots die x
      let out := slots.foldl (fun (acc : Option Die) t => acc.bind (fun d => (d.append g r .host t).map (fun e => e.1))) (some d)
      match out with
      | none => s
      | some d' =>
        let d' := { d' with extents := modFirst (fun y => y.ref == ref) (fun y => { y with draining := true }) d'.extents }
        whenDo (!s.inReset && d.live && x.current && !x.draining && decide (slots ≠ []) && decide (d.drainSlc g r = toSlc) &&
            !decide (s.mode.mode = Mode.holdup) && !s.fnStopped (33 + die * 4 + r)) s
          (((s.modDie die (fun _ => d')).flushStripes).afterWork die r d))

/-- The whole records that fill one journal chunk (R339). -/
def journalFill : Nat → List EffRec → List EffRec
  | _, [] => []
  | room, r :: rest => if r.octets ≤ room then r :: journalFill (room - r.octets) rest else []

/-- The journal chunks under way: numbers whose slot does not hold its records for good yet. -/
def Die.journalBusy (d : Die) (n : Nat) : Bool :=
  d.slots.any (fun e => match e.2 with
    | some t => t.sys && !t.named && decide (t.chunk = 2 ^ 20 + n % 2 ^ 20)
    | none => false)

/-- JOURNAL_DRAIN (R339): records from LOGTAIL to LOGMIRR enter a journal chunk in the HOST stream of the regions in
rotation; they are released once the chunk is verified. -/
def execJournalDrain (die : Nat) (s : State) : Out :=
  outcome (Wf.die die) (
    let d := s.die die
    let g := s.geo
    let n := d.jnext
    let rs := journalFill chunkSize d.mirroredLog
    let slot := sysSlot 1 n d.sysKey
    match d.append g (n % 4) .host slot with
    | none => s
    | some (d', _) =>
      whenDo (!s.inReset && d.live && decide (rs ≠ []) && !(d.journal.any (fun j => d.journalBusy j.1)) &&
          !decide (s.mode.mode = Mode.holdup)) s
        ((s.modDie die (fun _ => { d' with journal := d'.journal ++ [(n, rs)], jnext := n + 1 })).flushStripes.afterWork die (n % 4) d))

/-! ## Verification (R290, R304, R305, R317) -/

/-- No home part holds a record or a value (R452); an image that Transom bound goes with the next epoch. -/
def State.saggarEmpty (s : State) : Bool :=
  (upto 4).all (fun d => !(s.die d).live || (decide ((s.die d).log = []) && (s.die d).extents.all (fun x => match x.owner with
    | .image _ _ => true
    | .object _ | .part _ | .command _ | .staged _ => false)))

/-- In DRAIN the saggar is empty: every store die in service begins an epoch (R341, R452). -/
def State.settleDrained (s : State) : State :=
  if decide (s.mode.mode = Mode.drain) && !s.mode.drainAsked && s.saggarEmpty then
    { s with mode := { s.mode with drainAsked := true }
             dies := tabMapAll (fun _ => {}) (fun _ d => if d.online then { d with epochDue := true } else d) s.dies }
  else s

/-- Those epochs are complete: DRAINED reads 1 (R452). -/
def State.settleDrainEpochs (s : State) : State :=
  if s.mode.drainAsked && (upto 4).all (fun d => !(s.die d).online || (!(s.die d).epochDue && (s.die d).epochOpen.isNone)) then
    { s with mode := { s.mode with drained := true } }
  else s

/-- CHUNK_VERIFIED (R290, R317): a program status and a read-back of all four pages with a share of at most 0.25, that is 80 of
320 bits, verify the slot, once its group can be read (R280); its stripe's chunks are named when its parity is verified too.
Anything else is a failure of its block. -/
def execChunkVerified (die pca : Nat) (result : Program) (s : State) : Out :=
  outcome (Wf.die die && Wf.pca pca) (match (s.die die).slot pca with
    | none => s
    | some t =>
      let d := s.die die
      let out := match result with
        | .share c => if c ≤ 80 then (s.modDie die (fun d => d.verifySlot pca t)).settleDrained else s.blockFail die (pcaBlock pca) 3
        | .programFailed => s.blockFail die (pcaBlock pca) 1
        | .verifyFailed => s.blockFail die (pcaBlock pca) 3
      whenDo (!s.inReset && !t.verified && (d.superOf (pcaBlock pca)).isSome && d.groupWhole pca t.slc && d.lunFree pca) s
        ((out.settlePower die (pcaFlash pca)).afterWork die (pcaChannel pca / 16) d))

/-! ## Erase (R310, R318, R323, R344) -/

/-- Condition 1 of R344: every copy made from a block lies in a superblock with a verified summary. -/
def Die.copiesSafe (d : Die) (b : Nat) : Bool :=
  d.slots.all (fun e => match e.2 with
    | some t => (match t.src with
      | some p => if decide (pcaBlock p = b) && d.mapped e.1 then
          (match d.superOf (pcaBlock e.1) with
          | some k => (match d.super k with
            | some x => x.summarised
            | none => false)
          | none => false)
          else true
      | none => true)
    | none => true)

/-- The block of an emptied superblock may be erased (R344). -/
def Die.mayErase (d : Die) (b : Nat) : Bool :=
  match d.superOf b with
  | none => false
  | some k =>
    match d.super k with
    | some x => (match x.emptied with
      | some e => decide (e ≤ d.epochNo) && d.copiesSafe b && !(d.block b).bad
      | none => false)
    | none => false

/-- Block b leaves its superblock; a superblock with no block left is gone. A retired block is not waited for. -/
def Die.leaveSuper (d : Die) (b : Nat) : Die :=
  match d.superOf b with
  | none => d
  | some k =>
    let d := d.modSuper k (fun x => { x with blocks := x.blocks.mapIdx (fun i o => if i = b / 262144 % 16 then none else o) })
    match d.super k with
    | some x => if x.blockList.all (fun q => (d.block q).bad) then d.setSuper k none else d
    | none => d

/-- No EZ-64 block remains on store die d: MOUNT_IMPORTDONE is recorded, and with the last such die the import ends (R361). -/
def State.settleImport (s : State) (d : Nat) : State :=
  let x := s.die d
  if x.ez64 && x.ready && x.supers.all (fun e => match e.2 with
      | some u => !u.ez
      | none => true) then
    let t := (s.modDie d (fun x => { x with ez64 := false })).raiseAt 0x0214 (srcOf 0x01 ((d + 1) * 256)) 0 0 0
    { t with mode := { t.mode with importing := (upto 4).any (fun k => (t.die k).ez64) } }
  else s

/-- ERASE_DONE (R293, R310, R318, R323, R344): the block's chunks are gone, it is erased in QLC mode and returns to the free pool, or is retired at ELIMIT
or by a failed erase; a purge target that fails erase keeps its content (MM_NOERASE). -/
def execEraseDone (die block : Nat) (ok : Bool) (s : State) : Out :=
  let d := s.die die
  let r := block / 4194304
  let purge := match d.superOf block with
    | some k => (match d.super k with
      | some x => decide (x.purge ≠ [])
      | none => false)
    | none => false
  let erased : State := s.modDie die (fun d =>
    let d : Die := { d with slots := d.slots.filter (fun e => decide (pcaBlock e.1 ≠ block)) }
    (d.modBlock block (fun b => { b with erases := b.erases + 1, reads := 0, mode := some false })).leaveSuper block)
  let worn := decide (field (d.region r).live.wear 16 16 ≤ (d.block block).erases + 1)
  let retired : State :=
    let t := erased.modDie die (fun d => d.modBlock block (fun b => { b with bad := true }))
    ((t.logRetire die (flashPlace die (block / 16384)) (block % 16384)).settleCapacity die r)
  let failed : State :=
    let t := s.blockFail die block 2
    let t := if purge then t.raise 0x0204 (srcOf 0x04 (die * 64 + block / 262144)) (t.fullPlace (flashPlace die (block / 16384)))
        (block % 16384) 0 0 else t
    t.modDie die (fun d => d.leaveSuper block)
  let t := if ok then (if worn then retired else erased) else failed
  let gone (p : Nat) : Bool := ok && decide (pcaBlock p = block)
  let left := t.eng.cmds.filter (fun c => c.holdErase.any (fun p => decide (c.die = die) && (gone p || (!ok && decide (pcaBlock p = block)))))
  let t := left.foldl (fun s c => (s.modCmd c.commit (fun c =>
    { c with holdErase := c.holdErase.filter (fun p => decide (pcaBlock p ≠ block)) })).settleCmd c.commit) t
  outcome (Wf.die die && Wf.block block) (whenDo (!s.inReset && d.mayErase block && !(d.flashDie (block / 16384)).resetting &&
    !decide (s.mode.mode = Mode.holdup)) s
    (((t.settleFull die r).settlePower die (block / 16384)).settleImport die))

/-! ## Internal work of a region (R308 to R319, Table 10-7) -/

/-- Internal work may run on region r of store die d: in service, its stripes reachable, not stopped. -/
def State.mayWork (s : State) (d r : Nat) : Bool :=
  !s.inReset && (s.die d).live && !decide (s.mode.mode = Mode.holdup) && !s.fnStopped (33 + d * 4 + r)

/-- The superblock is relocated into a stream. -/
def State.relocate (s : State) (d r k : Nat) (st : Stream) : State :=
  (s.modDie d (fun x => x.relocate s.geo k st)).afterWork d r (s.die d)

/-- A superblock holds a chunk on an erasure (R319). -/
def Die.hasLost (d : Die) (x : Super) : Bool :=
  (d.superSlots x).any (fun e => d.mapped e.1 && d.erased (pcaChannel e.1) (pcaPos e.1))

/-- What rebuild takes next: in ascending order, a superblock that holds a lost chunk or was abandoned, unless its position is
offline (R317 step 4, R319). -/
def Die.rebuildNext (d : Die) (r : Nat) : Option Nat :=
  ((d.regionSupers r).find? (fun e => e.2.closed && e.2.emptied.isNone && (d.hasLost e.2 || e.2.abandoned) &&
    !(d.validSlots e.2).isEmpty)).map (fun e => e.1)

/-- The first superblock marked for refresh (R314). -/
def Die.refreshNext (d : Die) (r : Nat) : Option Nat :=
  ((d.regionSupers r).find? (fun e => e.2.refresh && e.2.closed && e.2.emptied.isNone && !(d.validSlots e.2).isEmpty)).map
    (fun e => e.1)

/-- The SLC buffer exceeds its target (R293). -/
def Die.slcOver (d : Die) (r : Nat) : Bool := decide (d.slcTarget r < d.slcCount r)

/-- The oldest closed SLC superblock of a region (R293). -/
def Die.oldestSlc (d : Die) (r : Nat) : Option Nat :=
  ((sortBy (fun e => e.2.closeTime) (d.regionSupers r)).find? (fun e =>
    e.2.slc && decide (e.2.stream ≠ .image) && d.choosable e.2)).map (fun e => e.1)

/-- What reclaim takes next: the oldest SLC superblock while the buffer exceeds its target, else the closed superblock of the
highest score (R308). -/
def Die.reclaimNext (d : Die) (g : Geo) (r : Nat) : Option Nat :=
  (if d.slcOver r then d.oldestSlc r else none).orElse (fun _ =>
    (bestOf (fun e => d.score g e.2) ((d.regionSupers r).filter (fun e => d.choosable e.2))).map (fun e => e.1))

/-- Free superblocks number FREELOW, or FREEHI, or fewer (R309). -/
def Die.poolLow (d : Die) (g : Geo) (r : Nat) : Bool := decide (d.freeSupers g r ≤ field (d.region r).live.pool 0 16)
def Die.poolHigh (d : Die) (g : Geo) (r : Nat) : Bool := decide (d.freeSupers g r ≤ field (d.region r).live.pool 16 16)

/-- The closed superblock with the lowest mean erase count, the first of equals (R311). -/
def Die.levelNext (d : Die) (r : Nat) : Option Nat :=
  let mean (x : Super) : Int := -(((d.superWear x).1 * 65536 / max 1 (d.superWear x).2 : Nat) : Int)
  (bestOf (fun e => mean e.2) ((d.regionSupers r).filter (fun e => d.choosable e.2))).map (fun e => e.1)

/-- The superblocks of region r that a purge still has to relocate: targets of an MSDISC, and those that hold chunks which the
command's applied changes unmapped (R214, R323). -/
def State.purgeNext (s : State) (d r : Nat) : List Nat :=
  let x := s.die d
  let held := (s.eng.cmds.filter (fun c => decide (c.die = d))).flatMap (fun c => c.holdErase)
  ((x.regionSupers r).filter (fun e => (decide (e.2.purge ≠ []) || held.any (fun p => e.2.hasBlock (pcaBlock p))) &&
    e.2.emptied.isNone)).map (fun e => e.1)

/-- Fewer than 2^24 put serials remain before SERIALNEXT wraps, and the sweep of the next 2^24 has not been made (R337). -/
def Die.sweepDue (d : Die) : Bool := (decide (0x0FFFFFFF ≤ d.serialNext + 2 ^ 24) || decide (d.serialNext < 2 ^ 24)) && decide (d.sweepTo < 2 ^ 24)

/-- A mapped chunk of the sweep can be copied: no copy of it is under way, and its position is not offline (R321). -/
def Die.sweepable (d : Die) (p : Nat) : Bool := !d.copying p && decide (d.erasures (pcaChannel p / 16) (pcaPos p) < 3)

/-- The mapped chunks that carry a part handle of the next 2^24 serials (R337). -/
def Die.sweepTodo (d : Die) : List (Nat × Slot) :=
  d.slots.filterMap (fun e => match e.2 with
    | some t => if !t.sys && decide (0xF0000000 ≤ t.handle.toNat) && decide (t.handle.toNat < 0xF0000000 + 2 ^ 24) && d.mapped e.1
        then some (e.1, t) else none
    | none => none)

/-- Work of a rank of Table 10-7 is ready in region r: it has something to take and its stream has room. -/
def State.workReady (s : State) (d r : Nat) (rank : Nat) : Bool :=
  let x := s.die d
  let g := s.geo
  match rank with
  | 1 => ((x.rebuildNext r).isSome ||
      (x.sweepDue && x.sweepTodo.any (fun e => decide (pcaChannel e.1 / 16 = r) && x.sweepable e.1))) && x.canAppend g r .copy
  | 2 => (x.refreshNext r).isSome && x.canAppend g r .copy
  | 3 => (x.reclaimNext g r).isSome && x.poolLow g r && x.canAppend g r .copy
  | 4 => (s.purgeNext d r).any (fun k => match x.super k with
      | some u => !u.closed || !(x.validSlots u).isEmpty
      | none => false) && x.canAppend g r .cold
  | 5 => x.slcOver r && (x.oldestSlc r).isSome && x.canAppend g r .copy
  | 6 => (x.reclaimNext g r).isSome && x.poolHigh g r && x.canAppend g r .copy
  | 7 => (x.region r).levelling && (x.levelNext r).isSome && x.canAppend g r .cold
  | _ => false

/-- Work of `rank` may be issued now: no work of a higher rank is ready (R316). -/
def State.rankFree (s : State) (d r rank : Nat) : Bool :=
  s.mayWork d r && (upto rank).all (fun k => !s.workReady d r k)

/-- A superblock of a retained epoch that must go makes the die begin epochs until no retained root names it (R342). -/
def State.unpin (s : State) (d k : Nat) : State :=
  match (s.die d).super k with
  | some x => if (s.die d).pinned x then s.modDie d (fun y => { y with epochDue := true }) else s
  | none => s

/-- REBUILD (R317 step 4, R319), rank 1: the superblock is relocated whole. -/
def execRebuild (die region : Nat) (s : State) : Out :=
  outcome (Wf.die die && Wf.region region) (match (s.die die).rebuildNext region with
    | none => s
    | some k => whenDo (s.rankFree die region 1) s ((s.relocate die region k .copy).unpin die k))

/-- REFRESH (R314), rank 2: the first superblock marked for refresh is relocated into the COPY stream. -/
def execRefresh (die region : Nat) (s : State) : Out :=
  outcome (Wf.die die && Wf.region region) (match (s.die die).refreshNext region with
    | none => s
    | some k => whenDo (s.rankFree die region 2) s ((s.relocate die region k .copy).unpin die k))

/-- The end of a reclaim pass on an SLC buffer above its target closes the SLC stripe begun, so that its superblock can be folded
in turn (R290). -/
def State.endPass (s : State) (d r : Nat) : State :=
  if (s.die d).slcOver r then s.modDie d (fun x => x.fillStripe s.geo r) else s

/-- RECLAIM_PASS (R308 to R310): rank 3 at FREELOW or fewer free superblocks, rank 6 above (R309, R316). -/
def execReclaimPass (die region : Nat) (s : State) : Out :=
  outcome (Wf.die die && Wf.region region) (
    let d := s.die die
    match d.reclaimNext s.geo region with
    | none => s
    | some k => whenDo (d.poolHigh s.geo region && s.rankFree die region (if d.poolLow s.geo region then 3 else 6)) s
        ((s.relocate die region k .copy).endPass die region))

/-- FOLD (R293), rank 5: the oldest SLC superblock is folded while the buffer exceeds its target. -/
def execFold (die region : Nat) (s : State) : Out :=
  outcome (Wf.die die && Wf.region region) (
    let d := s.die die
    match d.oldestSlc region with
    | none => s
    | some k => whenDo (d.slcOver region && s.rankFree die region 5) s ((s.relocate die region k .copy).endPass die region))

/-- STATIC_LEVELLING (R311), rank 7: the closed superblock with the lowest mean erase count goes to the COLD stream. -/
def execStaticLevelling (die region : Nat) (s : State) : Out :=
  outcome (Wf.die die && Wf.region region) (match (s.die die).levelNext region with
    | none => s
    | some k => whenDo (((s.die die).region region).levelling && s.rankFree die region 7) s (s.relocate die region k .cold))

/-- PATROL_READ (R312), rank 8: every verified slot of the superblock is read; an unverified one is not readable yet (R280). -/
def execPatrolRead (die super : Nat) (reads : List (Nat × List Attempt)) (s : State) : Out :=
  outcome (Wf.die die) (match (s.die die).super super with
    | none => s
    | some x =>
      let slots := ((s.die die).superSlots x).filter (fun e => e.2.verified)
      let t := slots.foldl (fun s e => s.flashRead die e.1 (attemptsFor reads e.1) (x.stripeReads e.1 reads)) s
      whenDo (s.rankFree die x.region 8 && decide ((s.die die).patrolNext x.region = some super) &&
          slots.all (fun e => (s.die die).lunFree e.1)) s
        ((t.modDie die (fun d => d.modSuper super (fun x => { x with lastPatrol := s.now.toNat }))).tellLsa s))

/-- The chunk counts of values and pending puts that invocations of store die d have staged (R302). -/
def State.stagedRuns (s : State) (d : Nat) : List Nat :=
  (s.eng.ctxs.filter (fun e => decide (e.1 / 1024 = d))).flatMap (fun e => match e.2 with
    | some v => v.staged.filterMap (fun x => match x with
        | .ins _ _ _ _ n _ | .pend _ _ n _ | .upd _ _ _ n _ => some (chunksOf n)
        | .del _ | .endPut _ | .part _ _ | .row _ _ _ _ _ _ | .rowDel _ => none)
    | none => [])

/-- MAP_COMPACTION (R303): with no free run of the length that a staged value or pending put takes, runs move toward index 0 until
one fits. -/
def execMapCompaction (die : Nat) (s : State) : Out :=
  outcome (Wf.die die) (match (s.stagedRuns die).find? (fun n => !(s.die die).runFits n) with
    | none => s
    | some n => whenDo (!s.inReset && (s.die die).live) s
        (s.modDie die (fun d => d.compact s.commitNow (s.heldRuns die) n)))

/-- The origin log without the entries of the serials swept: a chunk with none left is gone. -/
def Die.dropOrigins (d : Die) : List (Nat × List (Nat × W32 × Nat)) :=
  (d.originLog.map (fun o => (o.1, o.2.filter (fun e => decide (2 ^ 24 ≤ e.1))))).filter (fun o => decide (o.2 ≠ []))

/-- SERIAL_SWEEP (R337): every mapped chunk that carries a part handle of the next 2^24 serials is copied under its owner, as
work of rank 1; with none left their origin entries are dropped. -/
def execSerialSweep (die : Nat) (s : State) : Out :=
  let d := s.die die
  let t := match d.sweepTodo with
    | [] => s.modDie die (fun d => { d with sweepTo := 2 ^ 24, originLog := d.dropOrigins })
    | _ => s.modDie die (fun d => (d.sweepTodo.filter (fun e => d.sweepable e.1)).foldl (fun d e =>
        match d.append s.geo (pcaChannel e.1 / 16) .copy { e.2 with handle := d.ownerNow e.2, src := some e.1 } with
        | some (d, _) => d
        | none => d) d)
  outcome (Wf.die die) (whenDo (!s.inReset && d.live && d.sweepDue) s t)

/-- SDISCARD_PURGE (R214, R323), rank 4: the purge targets are relocated into the COLD stream; ERASE_DONE ends them. -/
def execSdiscardPurge (die : Nat) (s : State) : Out :=
  let todo := (upto 4).flatMap (fun r => if s.rankFree die r 4 then (s.purgeNext die r).map (fun k => (r, k)) else [])
  let close (s : State) (k : Nat) : State := s.modDie die (fun d => match d.super k with
    | some x => if x.closed then d else d.abandon s.geo k
    | none => d)
  outcome (Wf.die die) (todo.foldl (fun s e => ((close s e.2).relocate die e.1 e.2 .cold).unpin die e.2) s)

/-! ## Epochs (R341, R342) -/

/-- What a checkpoint of store die d writes: its own tables, its banks' rows and the package tables. -/
def State.snapshot (s : State) (d : Nat) : Snapshot :=
  let x := s.die d
  { dir := x.dir, gens := x.gens, map := x.map
    rows := s.sel.copies.filter (fun e => decide (bankOf e.1 / 4 = d))
    ns := s.tables.ns, handlers := s.eng.handlers, creds := s.tables.creds, progs := s.eng.progs
    hkey := s.tables.hkey, tablesAt := s.tables.changedAt }

/-- Chunks of the root (Table 11-7). -/
def rootChunks : Nat := 49

/-- EPOCH_BEGIN (R341): SEQSTART and JSTART are read; the live content is written; the root and the origin tail are written in the
COPY stream. -/
def execEpochBegin (die : Nat) (s : State) : Out :=
  outcome (Wf.die die) (
    let d := s.die die
    let g := s.geo
    let n := d.epochNo + 1
    let e : Epoch := { num := n, roots := [], lastCommit := d.log.foldl (fun m r => min m (r.commit - 1)) s.wot.lastCommit, seqStart := d.seqNext, jStart := d.jnext, commitEnd := d.commitEnd, seqEnd := d.seqEnd
                       serialNext := d.serialNext, snap := s.snapshot die }
    let due := d.epochDue || decide (d.epochAt + winDay ≤ s.clock.cycles)
    match d.appendSys g (n % 4) .copy ((upto rootChunks).map (fun i => sysSlot 3 i d.sysKey)) with
    | none => s
    | some (d', roots) =>
      let d' : Die := { d'.writeOrigin g originTailSize with
        epochOpen := some { e with roots := roots }, epochDue := false, epochAt := s.clock.cycles }
      whenDo (!s.inReset && d.live && d.online && due && d.epochOpen.isNone && !decide (s.mode.mode = Mode.holdup)) s
        ((s.modDie die (fun _ => d')).afterWork die (n % 4) d))

/-- The epoch's root counts as verified with its anchor. -/
def Die.verifyRoot (d : Die) (roots : List Nat) : Die :=
  { d with slots := tabMapAll (fun _ => none) (fun p o => o.map (fun t =>
      if roots.contains p then { t with verified := true, named := true } else t)) d.slots }

/-- EPOCH_COMPLETE (R341, R342, R353): the two newest epochs are retained; an image of an older epoch of the die is not used again,
and the PREDUMP images that it keeps for the die before it are anchored under the new epoch, so that they stay usable until that
die has drained them (R29, log 63); superblocks that nothing pins any more may be emptied; image extents written with the epoch
are released. -/
def execEpochComplete (die : Nat) (s : State) : Out :=
  outcome (Wf.die die) (
    let d := s.die die
    match d.epochOpen with
    | none => s
    | some e =>
      let settled := d.slots.all (fun k => match k.2 with
        | some t => t.verified || decide (e.seqStart ≤ t.seq)
        | none => true)
      let named := namedRefs d.log
      let d' : Die := { (d.verifyRoot e.roots).writeAnchor s.geo with
        epochs := e :: d.epochs.take 1, epochOpen := none
        images := (d.images.filter (fun i => decide (i.die ≠ die))).map (fun i => { i with epoch := e.num })
        extents := d.extents.filter (fun x => match x.owner with
          | .image _ _ => named.contains x.ref
          | .object _ | .part _ | .command _ | .staged _ => true) }
      let d' : Die := { d' with journal := d'.journal.filter (fun j => decide (d'.oldestJ ≤ j.1) || d'.journalBusy j.1) }
      whenDo (!s.inReset && settled) s
        (((s.modDie die (fun _ => d'.supers.foldl (fun d k => d.settleEmptied k.1) d')).modDie ((die + 1) % 4)
          (fun y => { y with images := y.images.filter (fun i => decide (i.die ≠ die)) })).settleDrainEpochs))

end Sys2Proof.Machine
end

