-- ==== Sys2Proof/Machine/RegRead.lean ====
section
/-! DEFINITION. Reading the register space (18): which register a place code and an offset name, the value a read returns
(R507 to R509, R522 to R530), what a read clears or copies (Table 0-5, R390, R509), the access statuses (Table 18-4). -/

namespace Sys2Proof.Machine

/-! ## Status values (Table 18-4) -/

def stOk : Nat := 0
def stNoUnit : Nat := 1
def stNoAddr : Nat := 2
def stUnavail : Nat := 3
def stNotStopped : Nat := 4
def stExhausted : Nat := 5
def stRejected : Nat := 6
def stEcc : Nat := 7

/-! ## Helpers -/

/-- Low and high half of a 64-bit quantity. -/
def lo32 (v : Nat) : Nat := v % 2 ^ 32
def hi32 (v : Nat) : Nat := v / 2 ^ 32 % 2 ^ 32

/-- A 64-bit RC counter of a table of counters at an offset 8i or 8i + 4 past `base` (R390). -/
def pairReg (counters : Tab Nat) (hi : Tab W32) (n base o : Nat) : Option Nat :=
  let i := (o - base) / 8
  if o < base ∨ n ≤ i then none
  else if o % 8 = base % 8 then some (lo32 (tabGet (fun _ => 0) counters i))
  else some (tabGet (fun _ => 0) hi i).toNat

/-- A 32-bit RC counter (R509). -/
def sat32 (v : Nat) : Nat := min v max32

/-! ## Package scope (R522) -/

/-- PKG_MODE (Table 15-5). -/
def State.pkgModeReg (s : State) : Nat :=
  s.mode.mode.code + 16 * bit01 s.readOnly + 32 * bit01 s.mode.drained + 64 * bit01 s.mode.importing

/-- OTP_CFG and OTP_REM (Tables 15-16, 15-17). -/
def otpCfgReg (o : Otp) : Nat := o.masterPref + 4 * bit01 o.importDis
def otpRemReg (o : Otp) : Nat :=
  o.leftFabDom + o.leftRootMgmt * 2 ^ 4 + o.leftMediaRoot * 2 ^ 9 + o.leftLaneMap * 2 ^ 14 + o.leftMasterPref * 2 ^ 17 +
  o.leftImportDis * 2 ^ 20

/-- FAB_STAT (Table 13-9). -/
def State.fabStatReg (s : State) : Nat :=
  let role := if s.fab.standalone then 3 else if s.cause 4 then 2 else if s.selfMember.isSome then 1 else 0
  s.fabaddr + 2 ^ 12 * bit01 s.fab.assigned + 2 ^ 13 * role

def FnState.code : FnState → Nat
  | .running => 0 | .stopping => 1 | .stopped => 2 | .starting => 3

/-- FN_CTRL and FN_STAT (Tables 15-7, 15-8). -/
def fnCtrlReg (f : Fn) : Nat := bit01 f.enable + 2 * bit01 f.retrain
def fnStatReg (f : Fn) : Nat := f.state.code + 4 * bit01 f.restartPending + 8 * bit01 f.stopPending

/-- Milliseconds of an availability counter (R475). -/
def availMs (cycles : Nat) : Nat := cycles / 100000

def State.packageReg (s : State) (o : Nat) : Option Nat :=
  if 0x100 ≤ o ∧ o < 0x100 + 4 * 51 then some (fnCtrlReg (s.fn ((o - 0x100) / 4)))
  else if 0x200 ≤ o ∧ o < 0x200 + 4 * 51 then some (fnStatReg (s.fn ((o - 0x200) / 4)))
  else if 0x050 ≤ o ∧ o ≤ 0x07C then pairReg s.fab.counters s.fab.hi 6 0x050 o
  else match o with
    | 0x000 => some (0x8256 + Config.rev.toNat * 2 ^ 16)
    | 0x004 => some (lo32 Config.uid.toNat)
    | 0x008 => some (hi32 Config.uid.toNat)
    | 0x00C => some s.pkgModeReg
    | 0x010 => some s.mode.degr.toNat
    | 0x014 => some s.mode.waitLimit.toNat
    | 0x018 => some s.net.poolWm.toNat
    | 0x01C => some s.mode.alertCause.toNat
    | 0x020 => some s.mode.alertMask.toNat
    | 0x024 => some (otpCfgReg s.otp)
    | 0x028 => some (otpRemReg s.otp)
    | 0x02C => some (lo32 (availMs s.clock.upCycles))
    | 0x030 => some s.clock.upHi.toNat
    | 0x034 => some (lo32 (availMs s.clock.downCycles))
    | 0x038 => some s.clock.downHi.toNat
    | 0x040 => some s.fab.ctrl.toNat
    | 0x044 => some s.fabStatReg
    | 0x048 => some (lo32 s.genNo)
    | 0x04C => some s.fab.genHi.toNat
    | _ => none

/-! ## Port-die singletons (R523) -/

/-- Counters of a MAC (Table 18-14) and of the terminator (R114). -/
def macCounters : Nat := 23
def wotCounters : Nat := 9

def State.wotReg (s : State) (o : Nat) : Option Nat :=
  match o with
  | 0x000 => some s.wot.cfg.toNat
  | 0x004 =>
    let used := s.wot.conns.filter (fun e => decide (e.2.state ≠ ConnState.free))
    some (used.length + 2 ^ 17 * (used.filter (fun e => e.2.mgmt && e.2.live)).length)
  | _ => pairReg s.wot.counters s.wot.hi wotCounters 0x010 o

def State.seqReg (s : State) (o : Nat) : Option Nat :=
  match o with
  | 0x000 => some (lo32 s.wot.lastCommit)
  | 0x004 => some s.wot.seqHi.toNat
  | 0x008 => some (s.wot.outstanding % 2 ^ 21)
  | 0x00C => some (lo32 s.wot.gate.length)
  | _ => none

/-- The event recorder (Tables 16-9, 16-10). -/
def Recorder.reg (r : Recorder) (o : Nat) : Option Nat :=
  match o with
  | 0x000 => some (bit01 r.freeze + r.rate * 2 ^ 16)
  | 0x004 => some (r.stateCode + r.count * 4 + r.fifo.length * 2 ^ 19)
  | 0x008 => some r.seq.toNat
  | 0x00C => some (sat32 r.lostFifo)
  | 0x010 => some (sat32 r.lostFrozen)
  | 0x014 => some (sat32 r.lostFull)
  | 0x018 => some (sat32 r.corr)
  | 0x01C => some (r.fsCause % 256 + r.fsIndex % 2 ^ 16 * 2 ^ 8 + r.fsCount % 256 * 2 ^ 24)
  | 0x020 => some (lo32 r.fsTime.toNat)
  | 0x024 => some r.fsHi.toNat
  | 0x028 => some (sat32 r.fsLost)
  | _ => none

/-- The time base (Table 17-4, R494). -/
def State.timeReg (s : State) (o : Nat) : Option Nat :=
  match o with
  | 0x000 => some (s.clock.tbCtrl.toNat % 2 ^ 18 + 2 ^ 18 * bit01 s.clock.locked)
  | 0x004 => some s.clock.tbAdj.toNat
  | 0x008 => some (lo32 s.now.toNat)
  | 0x00C => some s.clock.nowHi.toNat
  | 0x010 => some 0
  | 0x014 => some 0
  | _ => none

/-! ## Blocks on every die (R524) -/

/-- CLK_STAT (Table 17-3): a store die reports the port die's. -/
def clkStatReg (c : Clock) : Nat := bit01 c.rootLock + 2 * bit01 c.holdover + 4 * bit01 c.refLoss

def State.dieReg (s : State) (d o : Nat) : Option Nat :=
  match o with
  | 0x000 =>
    if d = 0 then some 1
    else
      let x := s.die (d - 1)
      some (bit01 x.online + 2 * x.cause + 16 * bit01 (decide (s.lease.holder = d - 1 ∧ s.lease.state = LeaseSt.held)))
  | 0x004 => some 0
  | _ => none

/-- Key of a program slot or trigger of the management engine of DIE d. -/
def progKey (d slot : Nat) : Nat := d * 64 + slot

def State.trig (s : State) (d slot : Nat) : Trig := tabGet (fun _ => {}) s.eng.trigs (progKey d slot)

def State.modTrig (s : State) (d slot : Nat) (f : Trig → Trig) : State :=
  { s with eng := { s.eng with trigs := tabMod (fun _ => {}) s.eng.trigs (progKey d slot) f } }

def State.mgmtReg (s : State) (d o : Nat) : Option Nat :=
  if o = 0 then
    let u := s.mgmtFault d
    let run := match s.inv (.mgmt d) with
      | some v => (match v.work with
        | .program slot _ => 1 + 2 * slot
        | .command _ => 0)
      | none => 0
    some (run + 2 ^ 7 * min 3 (countShown u.resets u.window (s.windowNo win60s)))
  else if 0x100 ≤ o ∧ o < 0x180 then
    let t := s.trig d (32 + (o - 0x100) / 4)
    some (t.period + min 255 t.skips * 2 ^ 24)
  else none

def State.supReg (s : State) (d o : Nat) : Option Nat :=
  match o with
  | 0x000 => some (bit01 (!tabGet (fun _ => false) s.pins.supplyBad d) + 2 * bit01 (s.mon d).tripped)
  | 0x004 => some ((s.mon d).tj.toNat + 2 ^ 12 * bit01 (s.mon d).hot)
  | _ => none

/-! ## Repeated blocks of a store die (R525, R527 to R530) -/

/-- FL_STATE of one die position (Table 18-16). -/
def flashStateCode (f : FlashDie) : Nat :=
  if f.failed || !f.populated then 3 else match f.power with
    | .active => 0
    | .idle => 1
    | .standby => 2

def State.channelReg (s : State) (d ch o : Nat) : Option Nat :=
  let x := s.die d
  let c := x.channel ch
  if o = 0 then
    some (c.bin + 2 ^ 4 * c.tbin + 2 ^ 8 * bit01 c.retired + 2 ^ 9 * bit01 c.trained +
      2 ^ 10 * countShown c.fails c.window (s.windowNo win10s) + 2 ^ 14 * c.dies)
  else if o = 4 then some (sumOf (fun p => flashStateCode (x.flashDie (ch * 16 + p)) * 4 ^ p) (upto 16))
  else if 0x100 ≤ o ∧ o < 0x100 + 4 * 72 then
    let k := tabGet (fun _ => { key := 0, ui := 0, fine := 0, eye := 0 }) c.desk ((o - 0x100) / 4)
    some (k.ui % 4 + k.fine % 128 * 4 + k.eye % 128 * 2 ^ 9)
  else if 0x240 ≤ o ∧ o < 0x240 + 8 * 16 then
    let id := tabGet (fun _ => []) c.ids ((o - 0x240) / 8)
    some (if o % 8 = 0 then leAt id 0 4 else leAt id 4 2)
  else none

def State.bankReg (s : State) (b o : Nat) : Option Nat :=
  let k := s.bank b
  match o with
  | 0x000 => some (bit01 k.inService + 2 * bit01 k.retired + 4 * bit01 k.reloading +
      8 * min 3 (countShown k.resets k.window (s.windowNo win60s)))
  | 0x004 => some (s.sel.rows.filter (fun e => decide (bankOf e.1 = b) && rowValid e.2)).length
  | 0x008 => some (k.scrub % rowsPerBank)
  | 0x010 => some (lo32 k.searches)
  | 0x014 => some k.hi.toNat
  | 0x018 => some (sat32 k.rowchk)
  | 0x01C => some (sat32 k.falsehit)
  | 0x020 => some (sat32 k.scrubfix)
  | 0x024 => some (sat32 k.copyfix)
  | _ => none

/-- Redundancy and erasures of a region (Table 18-15). -/
def State.erasReg (s : State) (d r : Nat) : Nat :=
  let x := s.die d
  let off := s.positionOffline d r
  sumOf (fun c => bit01 (x.channel (r * 16 + c)).retired * 2 ^ c) (upto 16) +
  2 ^ 16 * (if off then 0 else s.redundancy d r) + 2 ^ 18 * bit01 off

def State.regionReg (s : State) (d r o : Nat) : Option Nat :=
  let x := s.die d
  let k := x.region r
  let g := s.geo
  match o with
  | 0x000 => some k.cfg.reclaim.toNat
  | 0x004 => some k.cfg.pool.toNat
  | 0x008 => some k.cfg.wear.toNat
  | 0x00C => some k.cfg.patrol.toNat
  | 0x010 => some (tabGet (fun _ => 0) x.ledger.ds r)
  | 0x014 => some (tabGet (fun _ => 0) x.ledger.lcap r)
  | 0x018 => some (tabGet (fun _ => 0) x.ledger.lcount r)
  | 0x01C => some (min 65535 (x.freeSupers g r))
  | 0x020 =>
    let w := x.wear g r
    some (min 4095 (w.2.2.1 - w.2.2.2) + 2 ^ 12 * bit01 k.levelling)
  | 0x024 => some (s.erasReg d r)
  | 0x028 => some (min 65535 (x.slcCount r) + 2 ^ 16 * min 65535 (x.slcTarget r))
  | _ => none

def State.pseudoReg (s : State) (d i o : Nat) : Option Nat :=
  let p := tabGet (fun _ => {}) (s.die d).pseudo i
  match o with
  | 0x000 => some (bit01 p.retired + 2 * min 7 (countShown p.ue p.window (s.windowNo winDay)))
  | 0x004 => some (sat32 p.ce)
  | _ => none

def State.stackReg (s : State) (d o : Nat) : Option Nat :=
  let x := s.die d
  match o with
  | 0x000 => some (bit01 x.stackLost + 2 * bit01 x.stackTrained + 4 * x.stackCause)
  | 0x004 => some x.stackTemp.toNat
  | _ => none

/-- The endpoint number of a die-link place code (Table 1-3). -/
def linkOf (d i : Nat) : Nat := if d = 0 then i else 8 + 2 * (d - 1) + i

def State.linkReg (s : State) (n o : Nat) : Option Nat :=
  let l := s.link n
  match o with
  | 0x000 => some (bit01 l.inService + 2 * bit01 l.retired + 4 * min 7 (countShown l.retrains l.window (s.windowNo win10s)))
  | 0x004 => some (sat32 l.replays)
  | _ => none

/-- Arbiter blocks (Tables 14-5 to 14-7). -/
def State.arbReg (s : State) (p o : Nat) : Option Nat :=
  let a := s.arb p
  if o = 0 then
    some (bit01 (s.shutOf p) + 2 * s.dstate p + 2 ^ 8 * a.winMul + 2 ^ 16 * a.owner.getD 15 +
      2 ^ 20 * bit01 (a.owner.isSome && !a.granted))
  else if o = 4 then some (a.revokes + a.qmasks * 2 ^ 16)
  else if 0x010 ≤ o ∧ o < 0x010 + 4 * Wf.requesters (Wf.placeClass p) then
    let k := (o - 0x010) / 4
    let r := a.req p k
    some (bit01 r.high + 2 * r.rank + 2 ^ 4 * r.quota + 2 ^ 20 * bit01 r.qmasked + 2 ^ 21 * bit01 (s.sbMasked p k) +
      2 ^ 22 * bit01 r.noRev + 2 ^ 23 * bit01 (decide (r.pend ≠ [])))
  else none

def State.lockReg (s : State) (p o : Nat) : Option Nat :=
  match o with
  | 0x000 => some (lockStateReg (s.hwLock p))
  | 0x004 => some (lockOwnerReg (s.hwLock p))
  | _ => none

def State.engineReg (s : State) (e o : Nat) : Option Nat :=
  let u := s.engFault e
  if o = 0 then
    some (bit01 u.retired + 2 * min 3 (countShown u.resets u.window (s.windowNo win60s)) +
      8 * sumOf (fun c => bit01 (s.inv (.eng e c)).isSome * 2 ^ c) (upto 8))
  else none

def State.clusterReg (s : State) (n o : Nat) : Option Nat :=
  let u := s.clFault n
  match o with
  | 0x000 => some (bit01 u.retired + 2 * min 3 (countShown u.resets u.window (s.windowNo win60s)))
  | 0x004 => some (sat32 (tabGet (fun _ => 0) s.eng.icMiss n))
  | _ => none

/-! ## Lanes, port groups, MACs (R526, R530) -/

def State.laneReg (s : State) (l o : Nat) : Option Nat :=
  let x := s.lane l
  match o with
  | 0x000 => some (bit01 x.inService + 2 * bit01 x.lock + 4 * min 7 (countShown x.retrains x.window (s.windowNo win60s)) +
      32 * bit01 x.mapped)
  | 0x004 => some (x.eyeH % 256 + x.eyeW % 256 * 2 ^ 8)
  | _ => none

/-- PG_CTRL: CURWIDTH is that of MAC 0 of the group. -/
def State.groupReg (s : State) (g o : Nat) : Option Nat :=
  let x := s.group g
  match o with
  | 0x000 => some (field x.cfg 0 5 + sumOf (fun k => bit01 (s.lane (4 * g + k)).inService * 2 ^ (8 + k)) (upto 4) +
      sumOf (fun k => bit01 (s.mac (4 * g + k)).link * 2 ^ (12 + k)) (upto 4) + 2 ^ 16 * widthCode (s.macLanes (4 * g)))
  | 0x010 => some (lo32 x.fecCorr)
  | 0x018 => some (lo32 x.fecUncorr)
  | 0x020 => some (lo32 x.linkDown)
  | 0x014 => some (tabGet (fun _ => 0) x.hi 0).toNat
  | 0x01C => some (tabGet (fun _ => 0) x.hi 1).toNat
  | 0x024 => some (tabGet (fun _ => 0) x.hi 2).toNat
  | _ => none

/-- A MAC's registers: settings read as written; an absent MAC's registers read 0 (R526). -/
def State.macReg (s : State) (m o : Nat) : Option Nat :=
  let x := s.mac m
  let c := x.cfg
  let v : Option Nat :=
    if 0x040 ≤ o ∧ o < 0x060 then some (tabGet dscpMapReset c.dscpMap ((o - 0x040) / 4)).toNat
    else if 0x060 ≤ o ∧ o < 0x080 then some (ringCfg c ((o - 0x060) / 4)).toNat
    else if 0x080 ≤ o ∧ o < 0x0A0 then some (ringWm c ((o - 0x080) / 4)).toNat
    else if 0x0A0 ≤ o ∧ o < 0x0C0 then
      let p := (o - 0x0A0) / 4
      some (x.occ p + 2 ^ 12 * bit01 (tabGet (fun _ => false) x.xoff p) + 2 ^ 13 * bit01 (decide (0 < tabGet (fun _ => 0) x.paused p)))
    else if 0x100 ≤ o then pairReg x.counters x.hi macCounters 0x100 o
    else match o with
      | 0x000 => some c.macCtrl.toNat
      | 0x004 => some c.macFc.toNat
      | 0x008 => some x.tsAdj.toNat
      | 0x00C => some c.fabMac.toNat
      | 0x010 => some 0
      | 0x014 => some (bitsOf x.tsqData.toNat 0 32)
      | 0x018 => some (bitsOf x.tsqData.toNat 32 32)
      | 0x01C => some (bitsOf x.tsqData.toNat 64 32)
      | 0x020 => some (bitsOf x.tsqData.toNat 96 32)
      | _ => none
  v.map (fun n => if s.macPresent m then n else 0)

/-! ## Any register -/

/-- Engine, cluster, bank and region of a place code (R11). -/
def placeEngine (p : Nat) : Nat := (Wf.placeDie p - 1) * 128 + Wf.placeRegion p * 32 + Wf.placeCluster p * 8 + Wf.placeIndex p
def placeClusterNo (p : Nat) : Nat := (Wf.placeDie p - 1) * 16 + Wf.placeRegion p * 4 + Wf.placeCluster p
def placeBank (p : Nat) : Nat := (Wf.placeDie p - 1) * 4 + Wf.placeRegion p
/-- Flash channel, 0 to 63, of a place code. -/
def placeChannel (p : Nat) : Nat := Wf.placeRegion p * 16 + Wf.placeIndex p

/-- What a read of offset o of the unit with place code p returns; none where there is no register (R507, R508). -/
def State.regValue (s : State) (p o : Nat) : Option Nat :=
  let d := Wf.placeDie p
  let i := Wf.placeIndex p
  if o % 4 ≠ 0 ∨ 0x1000 ≤ o then none
  else match Wf.placeClass p with
    | 0x00 => s.packageReg o
    | 0x01 => s.dieReg d o
    | 0x02 => s.engineReg (placeEngine p) o
    | 0x03 => s.clusterReg (placeClusterNo p) o
    | 0x04 => s.channelReg (d - 1) (placeChannel p) o
    | 0x06 => s.bankReg (placeBank p) o
    | 0x07 => s.regionReg (d - 1) (Wf.placeRegion p) o
    | 0x08 => s.pseudoReg (d - 1) i o
    | 0x09 => s.stackReg (d - 1) o
    | 0x0A => s.linkReg (linkOf d i) o
    | 0x0B | 0x0C | 0x0D | 0x0E => s.arbReg p o
    | 0x0F => s.lockReg p o
    | 0x10 => s.mgmtReg d o
    | 0x11 => s.laneReg i o
    | 0x12 => s.groupReg i o
    | 0x13 => s.macReg i o
    | 0x14 => if o = 0 then some (s.freeBuf + 2 ^ 14 * bit01 s.net.poolXoff) else if o = 4 then some (s.poolFree / 1024) else none
    | 0x15 => s.wotReg o
    | 0x16 => s.seqReg o
    | 0x17 => s.recorder.reg o
    | 0x18 => if o = 0 then some (leaseReg s.lease) else none
    | 0x19 => s.timeReg o
    | 0x1A => if o = 0 then some (clkStatReg s.clock) else none
    | 0x1B => if o = 0 then some s.mode.bootStat.toNat else none
    | 0x1C => s.supReg d o
    | _ => none

/-- The unit cannot be reached: it is in reset, or on a store die with both die links retired (Table 18-4). -/
def State.unitDown (s : State) (p : Nat) : Bool :=
  let d := Wf.placeDie p
  s.inReset || (decide (d ≠ 0) && ((s.die (d - 1)).inReset || (s.linkRetired (d - 1) 0 && s.linkRetired (d - 1) 1)))

/-! ## What a read does besides (Table 0-5, R390, R509) -/

/-- A 64-bit RC counter read at its low register: cleared, its high half copied. -/
def clearPair (counters : Tab Nat) (hi : Tab W32) (i : Nat) : Tab Nat × Tab W32 :=
  (tabSet (fun _ => 0) counters i 0, tabSet (fun _ => 0) hi i (w32 (hi32 (tabGet (fun _ => 0) counters i))))

/-- Offset o is the low register of counter i of `n` at `base`. -/
def pairLow (n base o : Nat) : Option Nat :=
  if base ≤ o ∧ o % 8 = base % 8 ∧ (o - base) / 8 < n then some ((o - base) / 8) else none

/-- A register whose read clears a counter: the RC registers (Table 0-5). -/
def rcRegister (p o : Nat) : Bool :=
  match Wf.placeClass p with
  | 0x00 => (pairLow 6 0x050 o).isSome
  | 0x03 | 0x08 | 0x0A | 0x0B | 0x0C | 0x0D | 0x0E => decide (o = 4)
  | 0x06 => [0x010, 0x018, 0x01C, 0x020, 0x024].contains o
  | 0x10 => decide (0x100 ≤ o ∧ o < 0x180)
  | 0x12 => [0x010, 0x018, 0x020].contains o
  | 0x13 => (pairLow macCounters 0x100 o).isSome
  | 0x15 => (pairLow wotCounters 0x010 o).isSome
  | 0x17 => [0x00C, 0x010, 0x014, 0x018].contains o
  | _ => false

/-- A _LO register whose read copies the high half (R509). -/
def loRegister (p o : Nat) : Bool :=
  match Wf.placeClass p with
  | 0x00 => [0x02C, 0x034, 0x048].contains o
  | 0x16 => decide (o = 0)
  | 0x17 => decide (o = 0x020)
  | 0x19 => decide (o = 0x008)
  | _ => false

/-- The state after a read of an RC register. -/
def State.rcClear (s : State) (p o : Nat) : State :=
  let d := Wf.placeDie p
  let i := Wf.placeIndex p
  match Wf.placeClass p with
  | 0x00 =>
    let r := clearPair s.fab.counters s.fab.hi ((o - 0x050) / 8)
    { s with fab := { s.fab with counters := r.1, hi := r.2 } }
  | 0x03 => { s with eng := { s.eng with icMiss := tabSet (fun _ => 0) s.eng.icMiss (placeClusterNo p) 0 } }
  | 0x06 => s.modBank (placeBank p) (fun k => match o with
      | 0x010 => { k with searches := 0, hi := w32 (hi32 k.searches) }
      | 0x018 => { k with rowchk := 0 }
      | 0x01C => { k with falsehit := 0 }
      | 0x020 => { k with scrubfix := 0 }
      | _ => { k with copyfix := 0 })
  | 0x08 => s.modDie (d - 1) (fun x => { x with pseudo := tabMod (fun _ => {}) x.pseudo i (fun q => { q with ce := 0 }) })
  | 0x0A => s.modLink (linkOf d i) (fun l => { l with replays := 0 })
  | 0x0B | 0x0C | 0x0D | 0x0E => s.modArb p (fun a => { a with revokes := 0, qmasks := 0 })
  | 0x10 => s.modTrig d (32 + (o - 0x100) / 4) (fun t => { t with skips := 0 })
  | 0x12 => s.modGroup i (fun g => match o with
      | 0x010 => { g with fecCorr := 0, hi := tabSet (fun _ => 0) g.hi 0 (w32 (hi32 g.fecCorr)) }
      | 0x018 => { g with fecUncorr := 0, hi := tabSet (fun _ => 0) g.hi 1 (w32 (hi32 g.fecUncorr)) }
      | _ => { g with linkDown := 0, hi := tabSet (fun _ => 0) g.hi 2 (w32 (hi32 g.linkDown)) })
  | 0x13 =>
    if s.macPresent i then s.modMac i (fun m =>
      let r := clearPair m.counters m.hi ((o - 0x100) / 8)
      { m with counters := r.1, hi := r.2 }) else s
  | 0x15 =>
    let r := clearPair s.wot.counters s.wot.hi ((o - 0x010) / 8)
    { s with wot := { s.wot with counters := r.1, hi := r.2 } }
  | 0x17 =>
    let r := s.recorder
    { s with recorder := match o with
      | 0x00C => { r with lostFifo := 0 }
      | 0x010 => { r with lostFrozen := 0 }
      | 0x014 => { r with lostFull := 0 }
      | _ => { r with corr := 0 } }
  | _ => s

/-- The state after a read of a _LO register. -/
def State.loCopy (s : State) (p o : Nat) : State :=
  match Wf.placeClass p, o with
  | 0x00, 0x02C => { s with clock := { s.clock with upHi := w32 (hi32 (availMs s.clock.upCycles)) } }
  | 0x00, 0x034 => { s with clock := { s.clock with downHi := w32 (hi32 (availMs s.clock.downCycles)) } }
  | 0x00, 0x048 => { s with fab := { s.fab with genHi := w32 (hi32 s.genNo) } }
  | 0x16, _ => { s with wot := { s.wot with seqHi := w32 (hi32 s.wot.lastCommit) } }
  | 0x17, _ => { s with recorder := { s.recorder with fsHi := w32 (hi32 s.recorder.fsTime.toNat) } }
  | 0x19, _ => { s with clock := { s.clock with nowHi := w32 (hi32 s.now.toNat) } }
  | _, _ => s

/-- One register read: its answer, and the state after it (R513, R514). FABADDR of the place code is ignored (R507). -/
def State.regRead (s : State) (place : W32) (o : Nat) : Answer × State :=
  let p := place.toNat % 0x100000
  if !Wf.place p then ({ status := stNoUnit }, s)
  else match s.regValue p o with
    | none => ({ status := stNoAddr }, s)
    | some v =>
      if s.unitDown p then ({ status := stUnavail }, s)
      else ({ status := stOk, value := w32 v },
        if rcRegister p o then s.rcClear p o else if loRegister p o then s.loCopy p o else s)

end Sys2Proof.Machine
end

