-- ==== Sys2Proof/Machine/RegWrite.lean ====
section
/-! DEFINITION. Writing the register space (18): the checks of R514 in the order of Table 18-4, the effect of a write on the
fields it may change (Table 0-5), and the settings entries of BOOT, which write as if every function were stopped (R502). -/

namespace Sys2Proof.Machine

/-- What a write answers: a status and, with status OK, the state after it. -/
abbrev Put := Nat × State

/-- The first check that fails gives the status and nothing changes; with none the write is applied (R514). -/
def put (checks : List (Bool × Nat)) (s t : State) : Put :=
  match checks.find? (fun c => c.1) with
  | some c => (c.2, s)
  | none => (stOk, t)

/-- A WP field would change while its function is not STOPPED; at BOOT every function counts as stopped (R457, R502). -/
def State.wpClosed (s : State) (boot : Bool) (fn : Nat) (old new mask : W32) : Bool :=
  !boot && !s.fnStopped fn && decide (old &&& mask ≠ new &&& mask)

/-! ## Package scope -/

/-- A write-limited setting changed: one count used and OTP_CHANGE recorded (R465). -/
def State.otpEvent (s : State) (commit setting left : Nat) : State := s.raiseAt 0x0014 (srcOf 0x1B 0) commit setting left

/-- OTP_CFG (Table 15-16, R467). -/
def State.putOtpCfg (s : State) (boot : Bool) (v : W32) (commit : Nat) : Put :=
  let o := s.otp
  let pref := field v 0 2
  let dis := v.getLsbD 2
  let newPref := decide (pref ≠ o.masterPref)
  let newDis := dis && !o.importDis
  let t : State := if newPref then
      State.otpEvent { s with otp := { o with masterPref := pref, leftMasterPref := o.leftMasterPref - 1 } } commit 5 (o.leftMasterPref - 1)
    else s
  let t : State := if newDis then
      State.otpEvent { t with otp := { t.otp with importDis := true, leftImportDis := o.leftImportDis - 1 } } commit 6 (o.leftImportDis - 1)
    else t
  put [((newPref && decide (o.leftMasterPref = 0)) || (dis != o.importDis && decide (o.leftImportDis = 0)), stExhausted),
    ((o.importDis && !dis) || (boot && (newPref || newDis)), stRejected)] s t

/-- FAB_CTRL (Table 13-7). -/
def State.putFabCtrl (s : State) (boot : Bool) (v : W32) : Put :=
  let new := v &&& 0xFFFF0003#32
  put [(s.wpClosed boot 0 s.fab.ctrl new 0xFFFF0003#32, stNotStopped),
    (decide (field new 0 2 = 0) || decide (field new 16 16 = s.wotPort), stRejected)] s
    { s with fab := { s.fab with ctrl := new, ctrlLive := if boot then new else s.fab.ctrlLive } }

/-- FN_CTRL n (R455, R458). -/
def State.putFnCtrl (s : State) (n : Nat) (v : W32) (commit : Nat) : Put :=
  put [(!v.getLsbD 0 && !s.mode.mode.serving, stRejected)] s (s.fnWrite n v commit)

def State.putPackage (s : State) (boot : Bool) (o : Nat) (v : W32) (commit : Nat) : Put :=
  if 0x100 ≤ o ∧ o < 0x100 + 4 * 51 then s.putFnCtrl ((o - 0x100) / 4) v commit
  else match o with
    | 0x014 =>
      put [(decide (field v 0 16 = 0) || decide (60000 < field v 0 16), stRejected)] s
        { s with mode := { s.mode with waitLimit := v &&& 0xFFFF#32 } }
    | 0x018 =>
      put [(decide (field v 16 16 ≤ field v 0 16), stRejected)] s
        (State.settleFlow { s with net := { s.net with poolWm := v } })
    | 0x01C => (stOk, State.settleAlert { s with mode := { s.mode with
        alertCause := s.mode.alertCause &&& ~~~(v.setWidth 7 &&& 0x7E#7) } })
    | 0x020 => (stOk, State.settleAlert { s with mode := { s.mode with alertMask := v.setWidth 7 &&& 0x5E#7 } })
    | 0x024 => s.putOtpCfg boot v commit
    | 0x040 => s.putFabCtrl boot v
    | _ => (stOk, s)

/-! ## Port-die singletons -/

/-- WOT_CFG (Table 18-12). -/
def State.putWotCfg (s : State) (v : W32) : Put :=
  let port := field v 0 16
  let idle := field v 16 12
  let moved := decide (port ≠ s.wotPort)
  let busy := s.wot.conns.any (fun e => decide (e.2.state ≠ ConnState.free))
  put [(decide (idle = 0) || decide (3600 < idle) ||
      (moved && (busy || [0, 319, 320, field s.fab.ctrl 16 16].contains port)), stRejected)] s
    { s with wot := { s.wot with cfg := v &&& 0xFFFFFFF#32 } }

/-- EV_CTRL (Table 16-9, R479, R482, R483): RATE takes effect at the next window. -/
def State.putEvCtrl (s : State) (v : W32) : Put :=
  let r := s.recorder
  let clear := v.getLsbD 1
  let r1 := (r.openWindow (s.windowNo winMs)).setFreeze (v.getLsbD 0)
  let r2 : Recorder := { r1 with rate := field v 16 10 }
  let r3 := if clear then r2.clear s.now else r2
  put [(decide (field v 16 10 = 0) || (clear && decide (r.stateCode = 0)), stRejected)] s (s.withRecorder r3)

/-- The bound of TB_ADJ (R493). -/
def tbAdjMax : Int := 21474836

/-- The offset of TB_STEP_HI and TB_STEP_LO added to every copy (R493). -/
def State.stepTime (s : State) (hi : W32) : State :=
  let offset := hi.toNat * 2 ^ 32 + s.clock.stepLo.toNat
  { s with clock := { s.clock with tb := s.clock.tb + BitVec.ofNat 96 (offset * 2 ^ 32) } }

def State.putTime (s : State) (o : Nat) (v : W32) : Put :=
  match o with
  | 0x000 =>
    put [(decide (field v 16 2 = 3) || !s.macPresent (field v 0 7), stRejected)] s
      { s with clock := { s.clock with tbCtrl := v &&& 0x3FFFF#32 } }
  | 0x004 =>
    put [(decide (tbAdjMax < v.toInt) || decide (v.toInt < -tbAdjMax), stRejected)] s
      { s with clock := { s.clock with tbAdj := v } }
  | 0x010 => (stOk, { s with clock := { s.clock with stepLo := v } })
  | 0x014 => (stOk, s.stepTime v)
  | _ => (stOk, s)

/-! ## Dies -/

/-- LOCK_FORCE of the lock table of DIE d (Table 14-10, R442). -/
def State.putLockForce (s : State) (d : Nat) (v : W32) : Put :=
  let bank := field v 8 2
  let go := v.getLsbD 31
  put [(go && decide (d = 0 ∧ bank ≠ 0), stRejected)] s
    (if go then s.lockAbandon (lockPlace d (bank * 256 + field v 0 8)) else s)

/-! ## Arbiters (14) -/

/-- The stop sequence of the owning function holds SHUT (R439). -/
def State.shutHeld (s : State) (p : Nat) : Bool := decide ((s.fn (arbFn p)).state ≠ FnState.running)

/-- ARB_CTRL (Table 14-5, R438, R439). -/
def State.putArbCtrl (s : State) (boot : Bool) (p : Nat) (v : W32) : Put :=
  let a := s.arb p
  let win := field v 8 8
  let sh := v.getLsbD 0
  put [(!boot && !s.fnStopped (arbFn p) && decide (win ≠ a.winMul), stNotStopped),
    (decide (win = 0) || (s.shutHeld p && decide (sh ≠ a.shut)), stRejected)] s
    (s.modArb p (fun a => { a with shut := sh, winMul := win, winMulLive := if boot then win else a.winMulLive }))

/-- ARB_REQ k (Table 14-6): a class or rank takes effect at once, a quota at the restart; DUMP's fields are fixed. -/
def State.putArbReq (s : State) (boot : Bool) (p k : Nat) (v : W32) : Put :=
  let r := (s.arb p).req p k
  let high := v.getLsbD 0
  let rank := field v 1 3
  let quota := field v 4 16
  let change := decide (high ≠ r.high) || decide (rank ≠ r.rank) || decide (quota ≠ r.quota)
  put [(!boot && !s.fnStopped (arbFn p) && decide (quota ≠ r.quota), stNotStopped), (isDump p k && change, stRejected)] s
    (s.modArb p (fun a => a.reclass p k (fun r =>
      { r with high := high, rank := rank, quota := quota, quotaLive := if boot then quota else r.quotaLive })))

/-! ## Regions (10) -/

/-- MM_RECLAIM, MM_POOL, MM_WEAR, MM_PATROL (Tables 10-3 to 10-6). -/
def State.putRegion (s : State) (boot : Bool) (d r o : Nat) (v : W32) : Put :=
  let fn := 33 + globalRegion d r
  let c := ((s.die d).region r).cfg
  let set (f : RegionCfg → RegionCfg) : State := s.modDie d (fun x => x.modRegion r (fun k =>
    { k with cfg := f k.cfg, live := if boot then f k.live else k.live }))
  let all : W32 := 0xFFFFFFFF#32
  match o with
  | 0x000 =>
    let new := v &&& 0xFFFFFF#32
    put [(s.wpClosed boot fn c.reclaim new all, stNotStopped), (decide (field new 8 8 = 0), stRejected)] s
      (set (fun c => { c with reclaim := new }))
  | 0x004 =>
    put [(s.wpClosed boot fn c.pool v all, stNotStopped),
      (decide (field v 16 16 < field v 0 16) || decide (field v 0 16 < 4), stRejected)] s (set (fun c => { c with pool := v }))
  | 0x008 =>
    put [(s.wpClosed boot fn c.wear v all, stNotStopped),
      (decide (field v 0 12 < 100) || decide (4000 < field v 0 12), stRejected)] s (set (fun c => { c with wear := v }))
  | 0x00C =>
    put [(s.wpClosed boot fn c.patrol v all, stNotStopped), (decide (field v 0 8 = 0), stRejected)] s
      (set (fun c => { c with patrol := v }))
  | _ => (stOk, s)

/-! ## Port groups and MACs (12) -/

/-- PG_CTRL (Table 12-3). -/
def State.putGroup (s : State) (boot : Bool) (g o : Nat) (v : W32) : Put :=
  let x := s.group g
  let new := v &&& 0x1F#32
  if o = 0 then
    put [(s.wpClosed boot (g + 1) x.cfg new 0x1F#32, stNotStopped),
      (decide (field v 0 2 = 3) || decide (field v 2 2 = 3), stRejected)] s
      (s.modGroup g (fun x => { x with cfg := new, live := if boot then new else x.live }))
  else (stOk, s)

/-- Settings of a MAC changed by `f`, in force at once at BOOT. -/
def State.setMacCfg (s : State) (boot : Bool) (m : Nat) (f : MacCfg → MacCfg) : State :=
  s.modMac m (fun x => { x with cfg := f x.cfg, live := if boot then f x.live else x.live })

/-- The sum of RINGMIN over the rings of present MACs with RING_CFG p of MAC m at `v` (R376). -/
def State.ringMinSum (s : State) (m p : Nat) (v : W32) : Nat :=
  sumOf (fun k => if s.macPresent k then
    sumOf (fun q => if k = m ∧ q = p then field v 0 12 else ringMin (s.mac k).cfg q) (upto 8) else 0) (upto 128)

/-- The oldest timestamp entry moves into TSQ_DATA; an empty queue gives VALID 0 (R395). -/
def Mac.popTsq (x : Mac) : Mac :=
  match x.tsq with
  | [] => { x with tsqData := 0 }
  | e :: rest => { x with tsqData := e, tsq := rest }

def State.putMac (s : State) (boot : Bool) (m o : Nat) (v : W32) : Put :=
  let c := (s.mac m).cfg
  let fn := m / 4 + 1
  if !s.macPresent m then (stUnavail, s)
  else if 0x040 ≤ o ∧ o < 0x060 then
    let k := (o - 0x040) / 4
    let new := v &&& 0x77777777#32
    put [(s.wpClosed boot fn (tabGet dscpMapReset c.dscpMap k) new 0xFFFFFFFF#32, stNotStopped)] s
      (s.setMacCfg boot m (fun c => { c with dscpMap := tabSet dscpMapReset c.dscpMap k new }))
  else if 0x060 ≤ o ∧ o < 0x080 then
    let p := (o - 0x060) / 4
    let new := v &&& 0xFFFFFF#32
    put [(s.wpClosed boot fn (ringCfg c p) new 0xFFFFFFFF#32, stNotStopped),
      (decide (field new 12 12 < 5) || decide (field new 12 12 < field new 0 12) || decide (12288 < s.ringMinSum m p new), stRejected)] s
      (s.setMacCfg boot m (fun c => { c with ringCfg := tabSet (fun _ => ringCfgReset) c.ringCfg p new }))
  else if 0x080 ≤ o ∧ o < 0x0A0 then
    let p := (o - 0x080) / 4
    let new := v &&& 0xFFFFFF#32
    put [(s.wpClosed boot fn (ringWm c p) new 0xFFFFFFFF#32, stNotStopped), (decide (field new 0 12 ≤ field new 12 12), stRejected)] s
      (s.setMacCfg boot m (fun c => { c with ringWm := tabSet (fun _ => ringWmReset) c.ringWm p new }))
  else match o with
    | 0x000 =>
      let new := v &&& 0x3FFF7F#32
      let maxf := field new 8 14
      put [(s.wpClosed boot fn c.macCtrl new 0xFFFFFFFF#32, stNotStopped),
        (decide (field new 0 2 = 3) || decide (maxf < 1518) || decide (9216 < maxf), stRejected)] s
        (s.setMacCfg boot m (fun c => { c with macCtrl := new }))
    | 0x004 =>
      let new := v &&& 0xFFFFFF#32
      put [(s.wpClosed boot fn c.macFc new 0xFFFFFFFF#32, stNotStopped), (decide (field new 8 16 = 0), stRejected)] s
        (s.setMacCfg boot m (fun c => { c with macFc := new }))
    | 0x008 => (stOk, s.modMac m (fun x => { x with tsAdj := v }))
    | 0x00C =>
      let new := v &&& 0x7F#32
      put [(s.wpClosed boot fn c.fabMac new 0xFFFFFFFF#32, stNotStopped)] s
        (s.setMacCfg boot m (fun c => { c with fabMac := new }))
    | 0x010 => (stOk, if v.getLsbD 0 then s.modMac m Mac.popTsq else s)
    | _ => (stOk, s)

/-! ## Any register -/

/-- The write of a register that exists, by the class of its unit; RO registers ignore it (Table 0-5). -/
def State.regPut (s : State) (boot : Bool) (p o : Nat) (v : W32) (commit : Nat) : Put :=
  let d := Wf.placeDie p
  let i := Wf.placeIndex p
  match Wf.placeClass p with
  | 0x00 => s.putPackage boot o v commit
  | 0x01 => if o = 4 then s.putLockForce d v else (stOk, s)
  | 0x07 => s.putRegion boot (d - 1) (Wf.placeRegion p) o v
  | 0x0B | 0x0C | 0x0D | 0x0E =>
    if o = 0 then s.putArbCtrl boot p v else if 0x010 ≤ o then s.putArbReq boot p ((o - 0x010) / 4) v else (stOk, s)
  | 0x10 => (stOk, if 0x100 ≤ o then s.modTrig d (32 + (o - 0x100) / 4) (fun t => { t with period := field v 0 16 }) else s)
  | 0x12 => s.putGroup boot i o v
  | 0x13 => s.putMac boot i o v
  | 0x15 => if o = 0 then s.putWotCfg v else (stOk, s)
  | 0x17 => if o = 0 then s.putEvCtrl v else (stOk, s)
  | 0x19 => s.putTime o v
  | 0x1A => (stOk, if v.getLsbD 2 then { s with clock := { s.clock with refLoss := false } } else s)
  | 0x1C => (stOk, if o = 0 ∧ v.getLsbD 1 then s.modMon d (fun m => { m with tripped := false }) else s)
  | _ => (stOk, s)

/-- One register write at a commit number (R513, R514): NOUNIT, NOADDR and UNAVAIL come before the register's own checks. -/
def State.regWrite (s : State) (boot : Bool) (place : W32) (o : Nat) (v : W32) (commit : Nat) : Answer × State :=
  let p := place.toNat % 0x100000
  if !Wf.place p then ({ status := stNoUnit }, s)
  else match s.regValue p o with
    | none => ({ status := stNoAddr }, s)
    | some _ =>
      if s.unitDown p then ({ status := stUnavail }, s)
      else
        let r := s.regPut boot p o v commit
        ({ status := r.1 }, r.2)

end Sys2Proof.Machine
end

