-- ==== Sys2Proof/Machine/Tables.lean ====
section
/-! DEFINITION. The indirect tables (R517, R518): which unit owns which table, an entry's octets as TREAD returns them, the
checks and the effect of an entry that TWRITE carries. -/

namespace Sys2Proof.Machine

/-! ## The tables (Table 18-6) -/

/-- Class of the owning unit, entries, octets of an entry. -/
def tableShape (t : Nat) : Option (Nat × Nat × Nat) :=
  match t with
  | 1 => some (0x00, 4096, 4)
  | 2 => some (0x15, 4096, 40)
  | 3 => some (0x13, 16, 32)
  | 4 => some (0x00, 256, 16)
  | 5 => some (0x06, 262144, 24)
  | 6 => some (0x17, 65536, 32)
  | 7 => some (0x17, 65536, 4)
  | 8 => some (0x00, 65536, 8)
  | 9 => some (0x00, 4096, 16)
  | _ => none

/-- COUNT's limit for entries of `n` octets. -/
def countLimit (n : Nat) : Nat := min 65535 (262144 / n)

/-- An event record in record order (Table 16-4). -/
def recordOctets (r : Record) : Octets :=
  leOctets 2 r.ev.code ++ leOctets 2 r.ev.source ++ leOctets 4 r.seq.toNat ++ leOctets 8 r.ev.time.toNat ++
  leOctets 4 r.ev.p0.toNat ++ leOctets 4 r.ev.p1.toNat ++ leOctets 4 r.ev.p2.toNat ++ leOctets 4 r.ev.p3.toNat

/-- A member record (Table 13-3). -/
def memberOctets (m : Member) : Octets :=
  beOctets 8 m.uid.toNat ++ beOctets 2 m.addr ++ beOctets 2 m.serve.toNat ++ [BitVec.ofNat 8 m.flags] ++ zeros 3

/-! ## Reading an entry -/

/-- Record i of the recorder, the oldest first: NOADDR past the count, ECC at the record that failed (R487). -/
def Recorder.entry (r : Recorder) (i : Nat) : Nat × Octets :=
  if r.count ≤ i then (stNoAddr, [])
  else if r.badPos = some i then (stEcc, [])
  else match r.store[r.count - 1 - i]? with
    | some x => (stOk, recordOctets x)
    | none => (stNoAddr, [])

/-- Entry i of table t of unit p: a status and its octets. -/
def State.tableEntry (s : State) (p t i : Nat) : Nat × Octets :=
  match t with
  | 1 => (stOk, beOctets 4 (s.nsEntry i).toNat)
  | 2 => (stOk, beOctets 40 (credWord (s.cred i)))
  | 3 =>
    let m := Wf.placeIndex p
    (stOk, beOctets 32 (if s.macPresent m then (filterAt (s.mac m).cfg i).toNat else 0))
  | 4 => (stOk, beOctets 16 (entryWord (s.hslot i).entry))
  | 5 => (stOk, beOctets 24 (s.sel.row (placeBank p * rowsPerBank + i)).toNat)
  | 6 => s.recorder.entry i
  | 7 => (stOk, beOctets 4 (sat32 (tabGet (fun _ => 0) s.recorder.supp i)))
  | 8 => (stOk, beOctets 8 (s.placementEntry i))
  | _ =>
    (stOk, match (s.fab.gen.map (fun g => g.members)).bind (fun l => l[i]?) with
      | some m => memberOctets m
      | none => zeros 16)

/-- What the read of an entry clears: EV_SUPP is RC. -/
def State.tableRead (s : State) (t i : Nat) : State :=
  if t = 7 then { s with recorder := { s.recorder with supp := tabSet (fun _ => 0) s.recorder.supp i 0 } } else s

/-- Entries from `i` on, `n` of them at most: status of the first that failed, entries done, octets. -/
def State.readEntries (s : State) (p t entries : Nat) : Nat → Nat → Nat × Nat × Octets × State
  | 0, _ => (stOk, 0, [], s)
  | n + 1, i =>
    let e := if entries ≤ i then (stNoAddr, []) else if s.unitDown p then (stUnavail, []) else s.tableEntry p t i
    if e.1 ≠ stOk then (e.1, 0, [], s)
    else
      let r := (s.tableRead t i).readEntries p t entries n (i + 1)
      (r.1, r.2.1 + 1, e.2 ++ r.2.2.1, r.2.2.2)

/-! ## Writing an entry -/

/-- A namespace holds an object, an entry in STATE 2 or a pending put (R41). -/
def State.nsHolds (s : State) (n : Nat) : Bool :=
  (upto 4).any (fun d => (s.die d).dir.any (fun e => e.2.held && decide (e.2.nsid = n)) ||
    (s.die d).allPuts.any (fun p => decide (p.nsid = n)))

/-- NAMESPACE (R40, R41): recorded with NS_WRITE. -/
def State.putNs (s : State) (i : Nat) (v : Nat) (commit : Nat) : Put :=
  let new := w32 v &&& 0x1FFFFF#32
  let old := s.nsEntry i
  let t : State := { s with tables := { s.tables with ns := tabSet nsDefault s.tables.ns i new } }
  put [(decide (field new 1 19 ≠ field old 1 19) && s.nsHolds i, stRejected)] s
    ((t.logTables commit [.tableNs i new]).raiseAt 0x0016 (srcOf 0x16 0) commit i new.toNat)

/-- Every connection opened with credential n is reset with reason CRED (R81). -/
def State.resetCred (s : State) (n : Nat) : State :=
  s.wot.conns.foldl (fun s e =>
    let k := s.conn e.1
    if k.cred = n ∧ (k.live ∨ k.state = ConnState.opening) then s.resetConn e.1 5 0 else s) s

/-- CREDENTIAL (R80, R81). -/
def State.putCred (s : State) (i : Nat) (v : Nat) (commit : Nat) : Put :=
  let c : Cred := { valid := v.testBit 0, mgmt := v.testBit 1, nsLo := bitsOf v 2 12, nsHi := bitsOf v 14 12
                    psk := BitVec.ofNat 256 (bitsOf v 64 256) }
  let t := s.resetCred i
  let t : State := { t with tables := { t.tables with creds := tabSet (fun _ => {}) t.tables.creds i c } }
  put [(decide (i = 0), stRejected)] s (t.logTables commit [.tableCred i c])

/-- Writable bits of a filter entry (Table 12-6). -/
def filterMask : BitVec 256 :=
  BitVec.ofNat 256 ((2 ^ 128 - 1) * 2 ^ 128 + (2 ^ 32 - 1) * 2 ^ 64 + (2 ^ 51 - 1))

/-- FILTER (R370): an individual address goes into entries 0 to 7, a group address into 8 to 15. -/
def State.putFilter (s : State) (boot : Bool) (m i : Nat) (v : Nat) : Put :=
  let new := BitVec.ofNat 256 v &&& filterMask
  let old := filterAt (s.mac m).cfg i
  if !s.macPresent m then (stUnavail, s)
  else put [(!boot && !s.fnStopped (m / 4 + 1) && decide (new ≠ old), stNotStopped),
    (filterValid new && (new.getLsbD 40 != decide (8 ≤ i)), stRejected)] s
    (s.setMacCfg boot m (fun c => { c with filter := tabSet (fun _ => 0) c.filter i new }))

/-- Entry i of table t of unit p becomes the number v. -/
def State.putEntry (s : State) (boot : Bool) (p t i v commit : Nat) : Put :=
  match t with
  | 1 => s.putNs i v commit
  | 2 => s.putCred i v commit
  | 3 => s.putFilter boot (Wf.placeIndex p) i v
  | _ => (stRejected, s)

/-- Entries of `size` octets each written from index `i` on, until one fails: its status, entries done. -/
def State.writeEntries (s : State) (p t entries size commit : Nat) : Nat → Nat → Octets → Nat × Nat × State
  | 0, _, _ => (stOk, 0, s)
  | n + 1, i, o =>
    let e := if entries ≤ i then (stNoAddr, s) else if s.unitDown p then (stUnavail, s)
      else s.putEntry false p t i (beNat (o.take size)) commit
    if e.1 ≠ stOk then (e.1, 0, s)
    else
      let r := e.2.writeEntries p t entries size commit n (i + 1) (o.drop size)
      (r.1, r.2.1 + 1, r.2.2)

/-! ## TREAD and TWRITE (R518) -/

/-- What UNIT and TABLE name: a status, or the unit's place code with the table's shape. -/
def tableTarget (body : Octets) : Nat × Nat × Nat × Nat :=
  let p := beAt body 0 4 % 0x100000
  if !Wf.place p then (stNoUnit, p, 0, 0)
  else match tableShape (beAt body 4 1) with
    | some (cls, entries, size) => if Wf.placeClass p = cls then (stOk, p, entries, size) else (stNoAddr, p, 0, 0)
    | none => (stNoAddr, p, 0, 0)

/-- The response of both requests. -/
def tableResponse (status done : Nat) : Octets := [BitVec.ofNat 8 status] ++ zeros 3 ++ beOctets 4 done ++ zeros 8

end Sys2Proof.Machine
end

