-- ==== Sys2Proof/Machine/Boot.lean ====
section
/-! DEFINITION. BOOT (R499 to R504): the check of an image, the settings it carries, BOOT_STAT, and the end of BOOT. -/

namespace Sys2Proof.Machine

/-! ## The image (R500, Tables 17-7, 17-8) -/

/-- One entry of the section table: TYPE, OFFSET, SLEN, CRC. -/
structure Section where
  type : Nat
  off : Nat
  len : Nat
  crc : Nat
deriving DecidableEq, Repr

def imageLength (o : Octets) : Nat := leAt o 12 4
def imageVersion (o : Octets) : Nat := leAt o 8 4

/-- The section table of an image. -/
def imageSections (o : Octets) : List Section :=
  (upto (min 8 (leAt o 16 4))).map (fun k =>
    { type := leAt o (32 + 16 * k) 4, off := leAt o (36 + 16 * k) 4, len := leAt o (40 + 16 * k) 4, crc := leAt o (44 + 16 * k) 4 })

/-- The section of a type. -/
def sectionOf (o : Octets) (type : Nat) : Option Section := (imageSections o).find? (fun x => x.type == type)

def sectionOctets (o : Octets) (x : Section) : Octets := fitTo x.len (slice o x.off x.len)

/-- MAGIC, FORMAT, LENGTH and the section table are as Tables 17-7 and 17-8 say; every section lies within the image. -/
def imageHeaderOk (o : Octets) : Bool :=
  let n := imageLength o
  let secs := imageSections o
  decide (leAt o 0 4 = 0x455A4249) && decide (leAt o 4 4 = 1) && decide (512 ≤ n) && decide (n ≤ 16777216) &&
  decide (1 ≤ leAt o 16 4) && decide (leAt o 16 4 ≤ 8) &&
  secs.all (fun x => decide (1 ≤ x.type) && decide (x.type ≤ 4) && decide (256 ≤ x.off) && decide (x.off + x.len ≤ n - 96) &&
    (x.type != 1 || [1, 2, 3, 4, 5, 6, 7, 8].any (fun k => x.len == 512 * k))) &&
  (upto 5).all (fun t => decide ((secs.filter (fun x => x.type == t)).length ≤ 1)) &&
  secs.any (fun x => x.type == 1) && secs.any (fun x => x.type == 3)

/-- FAIL of Table 17-10 for one slot: 0 valid, 1 header, 2 section CRC, 3 signature. -/
def imageCheck (o : Octets) : Nat :=
  if !imageHeaderOk o then 1
  else if (imageSections o).any (fun x => decide ((crc32c (sectionOctets o x)).toNat ≠ x.crc)) then 2
  else if !Config.signatureVerifies (fitTo (imageLength o) o) then 3
  else 0

/-- What reading the slots gave: the slot booted, FALLBACK, FAIL0, FAIL1 (R501, R503). -/
structure BootFind where
  slot : Option Nat
  fallback : Bool
  fail0 : Nat
  fail1 : Nat
deriving DecidableEq, Repr

/-- Both headers are read; the slot whose valid header has the higher VERSION is read first, slot 0 on equal versions. FALLBACK
tells that the slot read first was invalid. -/
def bootFind (nor : NorRead) : BootFind :=
  if !nor.sfdpOk then { slot := none, fallback := false, fail0 := 4, fail1 := 4 }
  else
    let h0 := imageHeaderOk nor.slot0
    let h1 := imageHeaderOk nor.slot1
    let first0 := h0 && (!h1 || decide (imageVersion nor.slot1 ≤ imageVersion nor.slot0))
    let c0 := imageCheck nor.slot0
    let c1 := imageCheck nor.slot1
    if first0 then
      if c0 = 0 then { slot := some 0, fallback := false, fail0 := 0, fail1 := if h1 then 0 else 1 }
      else { slot := if c1 = 0 then some 1 else none, fallback := true, fail0 := c0, fail1 := c1 }
    else
      if c1 = 0 then { slot := some 1, fallback := false, fail0 := if h0 then 0 else 1, fail1 := 0 }
      else { slot := if c0 = 0 then some 0 else none, fallback := h1, fail0 := c0, fail1 := c1 }

/-! ## Settings (R502) -/

/-- The state, failed writes, index of the first, and the number of the next entry. -/
structure Settings where
  state : State
  failed : Nat := 0
  first : Option Nat := none
  next : Nat := 0
deriving DecidableEq, Repr

/-- One entry done with a status. -/
def Settings.take (a : Settings) (status : Nat) (t : State) : Settings :=
  if status = stOk then { a with state := t, next := a.next + 1 }
  else { a with failed := a.failed + 1, first := a.first.orElse (fun _ => some a.next), next := a.next + 1 }

/-- A SETTINGS entry: place code, offset, value. -/
def Settings.register (a : Settings) (e : Octets) : Settings :=
  let r := a.state.regWrite true (w32 (leAt e 0 4)) (leAt e 4 4) (w32 (leAt e 8 4)) a.state.commitNow
  a.take r.1.status r.2

/-- A TABLES entry with LEN octets from octet 12: only the FILTER table takes it. -/
def Settings.table (a : Settings) (e : Octets) : Settings :=
  let p := leAt e 0 4 % 0x100000
  let i := leAt e 8 4
  if !Wf.place p then a.take stNoUnit a.state
  else if leAt e 4 1 ≠ 3 ∨ leAt e 6 2 ≠ 32 then a.take stRejected a.state
  else if Wf.placeClass p ≠ 0x13 ∨ 16 ≤ i then a.take stNoAddr a.state
  else
    let r := a.state.putFilter true (Wf.placeIndex p) i (beNat (slice e 12 32))
    a.take r.1 r.2

/-- Up to `n` TABLES entries, each padded to a multiple of 4. -/
def tableEntries : Nat → Octets → List Octets
  | 0, _ => []
  | n + 1, o =>
    let size := 12 + 4 * ceilDiv (leAt o 6 2) 4
    if o.length < size then [] else o.take size :: tableEntries n (o.drop size)

/-- The SETTINGS entries, then the TABLES entries of an image, in order. -/
def State.applySettings (s : State) (o : Octets) : Settings :=
  let regs := match sectionOf o 2 with
    | some x =>
      let b := sectionOctets o x
      (upto (min (leAt b 0 4) (b.length / 12))).map (fun k => slice b (4 + 12 * k) 12)
    | none => []
  let tabs := match sectionOf o 4 with
    | some x =>
      let b := sectionOctets o x
      tableEntries (min (leAt b 0 4) (b.length / 12)) (b.drop 4)
    | none => []
  tabs.foldl Settings.table (regs.foldl Settings.register { state := s })

/-- BOOT_STAT (Table 17-10). -/
def bootStatOf (f : BootFind) (failed : Nat) (first : Option Nat) : W32 :=
  w32 (f.slot.getD 0 + 2 * bit01 f.fallback + 4 * f.fail0 + 32 * f.fail1 + 256 * min failed 255 +
    65536 * min (first.getD 0xFFFF) 0xFFFF)

/-! ## BOOT_END (R501, R503, R504) -/

/-- The profiles of an image, in image order (R269). -/
def imageProfiles (o : Octets) : List Octets :=
  match sectionOf o 1 with
  | some x => (upto (x.len / 512)).map (fun k => slice (sectionOctets o x) (512 * k) 512)
  | none => []

/-- The fabric record read: its generation is the last one committed; the address takes effect with the first generation after
BOOT (R409). A new RUN is drawn (Table 13-1). -/
def State.readFabRec (s : State) : State :=
  let q := s.random 8
  let older := match s.fabRec with
    | some r => r.gen.toList
    | none => []
  { q.2 with fab := { q.2.fab with older := older, fillDone := decide (older = []), run := BitVec.ofNat 64 (beNat q.1) } }

/-- Die links and stacks as their training left them. -/
def State.confirmTraining (s : State) : State :=
  let up (t : Tab DieLink) (n : Nat) : Tab DieLink := (upto n).foldl (fun t k => tabMod (fun _ => {}) t k (fun x =>
    if x.retired || x.retraining then x else { x with inService := true })) t
  { s with
    portLinks := up s.portLinks 8
    dies := (upto 4).foldl (fun t d => tabMod (fun _ => {}) t d (fun x =>
      { x with stackTrained := !x.stackLost, links := up x.links 2 })) s.dies }

/-- BOOT_END: with a valid image, profiles, fabric record and settings are taken and ELECT begins; else the package stays in
BOOT. -/
def execBootEnd (nor : NorRead) (s : State) : Out :=
  let f := bootFind nor
  outcome true (whenDo (decide (s.mode.mode = Mode.boot) && !s.mode.bootFailed) s
    (match f.slot with
      | none => { s with mode := { s.mode with bootFailed := true, bootStat := bootStatOf f 0 none } }
      | some k =>
        let image := if k = 0 then nor.slot0 else nor.slot1
        let t : State := { s.readFabRec.confirmTraining with profiles := imageProfiles image }
        let a := t.applySettings image
        let u : State := { a.state with mode := { a.state.mode with bootStat := bootStatOf f a.failed a.first } }
        u.toMode .elect))

end Sys2Proof.Machine
end

