-- ==== Sys2Proof/Machine/DefaultCmds.lean ====
section
/-! DEFINITION. The commands of the default set (04): each starts its factory image in a free context of the command's home
engine (R161). -/

namespace Sys2Proof.Machine

/-- GET (R122). -/
def execGet (commit ctx : Nat) (s : State) : Out :=
  outcome (Wf.commit commit && Wf.ctx ctx) (s.startFactory 0x01 commit ctx)

/-- GETSEL (R123). -/
def execGetsel (commit ctx : Nat) (s : State) : Out :=
  outcome (Wf.commit commit && Wf.ctx ctx) (s.startFactory 0x02 commit ctx)

/-- PUT (R124). -/
def execPut (commit ctx : Nat) (s : State) : Out :=
  outcome (Wf.commit commit && Wf.ctx ctx) (s.startFactory 0x03 commit ctx)

/-- DELETE (R125). -/
def execDelete (commit ctx : Nat) (s : State) : Out :=
  outcome (Wf.commit commit && Wf.ctx ctx) (s.startFactory 0x04 commit ctx)

/-- SDISCARD (R126). -/
def execSdiscard (commit ctx : Nat) (s : State) : Out :=
  outcome (Wf.commit commit && Wf.ctx ctx) (s.startFactory 0x05 commit ctx)

/-- MPBEGIN (R137). -/
def execMpbegin (commit ctx : Nat) (s : State) : Out :=
  outcome (Wf.commit commit && Wf.ctx ctx) (s.startFactory 0x08 commit ctx)

/-- MPPART (R138). -/
def execMppart (commit ctx : Nat) (s : State) : Out :=
  outcome (Wf.commit commit && Wf.ctx ctx) (s.startFactory 0x09 commit ctx)

/-- MPCOMMIT (R139). -/
def execMpcommit (commit ctx : Nat) (s : State) : Out :=
  outcome (Wf.commit commit && Wf.ctx ctx) (s.startFactory 0x0A commit ctx)

/-- MPCANCEL (R140). -/
def execMpcancel (commit ctx : Nat) (s : State) : Out :=
  outcome (Wf.commit commit && Wf.ctx ctx) (s.startFactory 0x0B commit ctx)

/-- SCAN (R129). -/
def execScan (commit ctx : Nat) (s : State) : Out :=
  outcome (Wf.commit commit && Wf.ctx ctx) (s.startFactory 0x10 commit ctx)

/-- FLUSH (R141). -/
def execFlush (commit ctx : Nat) (s : State) : Out :=
  outcome (Wf.commit commit && Wf.ctx ctx) (s.startFactory 0x11 commit ctx)

/-- FENCE (R142). -/
def execFence (commit ctx : Nat) (s : State) : Out :=
  outcome (Wf.commit commit && Wf.ctx ctx) (s.startFactory 0x12 commit ctx)

/-- STAT (R131). -/
def execStat (commit ctx : Nat) (s : State) : Out :=
  outcome (Wf.commit commit && Wf.ctx ctx) (s.startFactory 0x14 commit ctx)

/-- SELPUT (R128). -/
def execSelput (commit ctx : Nat) (s : State) : Out :=
  outcome (Wf.commit commit && Wf.ctx ctx) (s.startFactory 0x18 commit ctx)

/-- SELDEL (R128). -/
def execSeldel (commit ctx : Nat) (s : State) : Out :=
  outcome (Wf.commit commit && Wf.ctx ctx) (s.startFactory 0x19 commit ctx)

/-- ABORT_REPLY (R145). -/
def execAbortReply (commit ctx : Nat) (s : State) : Out :=
  outcome (Wf.commit commit && Wf.ctx ctx) (s.startFactory 0x13 commit ctx)

/-- OPERATOR_COMMAND (R161, R162): the operator image bound to the command's opcode starts; its first fetch fills the
instruction cache of the cluster (R149, log 13). -/
def execOperatorCommand (commit ctx : Nat) (s : State) : Out :=
  let t := match s.cmd? commit with
    | none => s
    | some c =>
      let x := CtxId.eng c.engine ctx
      let due := match s.nextFor c.engine with
        | some n => decide (n.commit = commit)
        | none => false
      match c.image with
      | some (.words ws) =>
        let free := due && (s.inv x).isNone && !s.masked.contains (enginePlace c.engine) && s.mode.mode.serving
        let u := s.take c x { s.startInv c (.words ws) with wait := .icache }
        whenDo free s { u with eng := { u.eng with icMiss := bump u.eng.icMiss (c.engine / 8) 1 } }
      | some (.factory _) => s
      | none => s
  outcome (Wf.commit commit && Wf.ctx ctx) t

/-- NOHANDLER_COMMAND (R119, R161): the slot is empty, and the port die ends the command. -/
def execNohandlerCommand (commit : Nat) (s : State) : Out :=
  let t := match s.cmd? commit with
    | none => s
    | some c => whenDo (decide (c.phase = Phase.queued) && !c.entry.valid && s.mayStart c) s
        (s.endDiscard c (c.built 0x0011 0) false)
  outcome (Wf.commit commit) t

end Sys2Proof.Machine
end

