-- ==== Sys2Proof/Machine/Registers.lean ====
section
/-! DEFINITION. Single register accesses: the rows that are one access of one register, whose status and value stand in
`answer`, and the end of RDREG and WRREG (R224). A single write takes effect at the commit number assigned last. -/

namespace Sys2Proof.Machine

/-- The access is answered. -/
def State.answered (r : Answer × State) : State := { r.2 with answer := r.1 }

/-- One single write of offset o of the unit with place code p. -/
def State.writeAt (s : State) (p o : Nat) (v : W32) : State := State.answered (s.regWrite false (w32 p) o v s.commitNow)

/-- REG_ACCESS_DONE (R224): the access is made, REGSTAT holds its status; a failed RDREG reads 0. -/
def execRegAccessDone (x : CtxId) (s : State) : Out :=
  let stat (v : Inv) (a : Answer) : Inv := { v with status := (v.status &&& ~~~0xFF#64) ||| w64 a.status }
  outcome (Wf.ctxId x) (s.onWait x (fun v w => match w with
    | .rdreg rd place off =>
      let r := s.regRead place off.toNat
      r.2.wake x ((stat v r.1).setG rd (r.1.value.setWidth 64))
    | .wrreg place off value =>
      let n := match v.work with
        | .program _ (some n) => n
        | .program _ none | .command _ => s.commitNow
      let r := s.regWrite false place off.toNat value n
      r.2.wake x (stat v r.1)
    | _ => s))

/-- FN_CTRL_ENABLE (R455). -/
def execFnCtrlEnable (fn : Nat) (value : W32) (s : State) : Out :=
  outcome (Wf.fn fn) (s.writeAt 0 (0x100 + 4 * fn) value)

/-- FREEZE (R482): a write of EV_CTRL. -/
def execFreeze (value : W32) (s : State) : Out := outcome true (s.writeAt (placeOf 0 0 0 0x17 0) 0x000 value)

/-- CLEAR (R483, R487): a write of EV_CTRL. -/
def execClear (value : W32) (s : State) : Out := outcome true (s.writeAt (placeOf 0 0 0 0x17 0) 0x000 value)

/-- TSQ_POP (R395). -/
def execTsqPop (mac : Nat) (value : W32) (s : State) : Out :=
  outcome (Wf.mac mac) (s.writeAt (placeOf 0 0 0 0x13 mac) 0x010 value)

/-- LOCK_FORCE (R442). -/
def execLockForce (die : Nat) (value : W32) (s : State) : Out :=
  outcome (Wf.die5 die) (s.writeAt (placeOf die 0 0 0x01 0) 0x004 value)

/-- SHUT (R438, R439): a write of ARB_CTRL. -/
def execShut (arb : Nat) (value : W32) (s : State) : Out := outcome (Wf.arb arb) (s.writeAt arb 0x000 value)

/-- TB_STEP_HI (R493). -/
def execTbStepHi (value : W32) (s : State) : Out := outcome true (s.writeAt (placeOf 0 0 0 0x19 0) 0x014 value)

/-- MASTERPREF (R467): a write of OTP_CFG. -/
def execMasterpref (value : W32) (s : State) : Out := outcome true (s.writeAt 0 0x024 value)

/-- IMPORTDIS (R467): a write of OTP_CFG. -/
def execImportdis (value : W32) (s : State) : Out := outcome true (s.writeAt 0 0x024 value)

/-- REGISTER_WRITE (R514). -/
def execRegisterWrite (place : W32) (off : Nat) (value : W32) (s : State) : Out :=
  outcome (Wf.offset off) (State.answered (s.regWrite false place off value s.commitNow))

/-- The access is of a register that meets `p`, or of none. -/
def State.readIf (s : State) (p : Nat → Nat → Bool) (place : W32) (off : Nat) : State :=
  let r := s.regRead place off
  whenDo (decide (r.1.status ≠ stOk) || p (place.toNat % 0x100000) off) s (State.answered r)

/-- RC_COUNTER_READ (R390, R509). -/
def execRcCounterRead (place : W32) (off : Nat) (s : State) : Out :=
  outcome (Wf.offset off) (s.readIf rcRegister place off)

/-- LOW_REGISTER_READ (R509). -/
def execLowRegisterRead (place : W32) (off : Nat) (s : State) : Out :=
  outcome (Wf.offset off) (s.readIf loRegister place off)

end Sys2Proof.Machine
end

