-- ==== Sys2Proof/Machine/Transom.lean ====
section
/-! DEFINITION. The Transom requests (R510 to R521, 07, 13, 15): each row is executed for the request at the front of the
management engine's queue when its CODE is the row's. -/

namespace Sys2Proof.Machine

/-- The request at the front when its CODE meets `p` and it has not started to wait. -/
def State.onReq (s : State) (p : TReq → Bool) (f : TReq → State) : State :=
  match s.eng.treqs with
  | r :: _ => if p r && !r.started && !s.inReset then f r else s
  | [] => s

def isCode (c : Nat) (r : TReq) : Bool := decide (r.code = c)

/-- TSTATUS LENGTH unless the body length is as it must be (R510). -/
def State.lengthOk (s : State) (r : TReq) (ok : Bool) (t : State) : State := if ok then t else s.tRespond r 2 []

/-- The front request has started and waits. -/
def State.startReq (s : State) : State :=
  { s with eng := { s.eng with treqs := match s.eng.treqs with
      | r :: rest => { r with started := true } :: rest
      | [] => [] } }

/-! ## Registers (R515) -/

/-- The read of one batch entry. -/
def State.rreadOne (acc : Octets × State) (o : Octets) : Octets × State :=
  let r := acc.2.regRead (w32 (beAt o 0 4)) (beAt o 4 2)
  (acc.1 ++ [BitVec.ofNat 8 r.1.status] ++ zeros 3 ++ beOctets 4 r.1.value.toNat, r.2)

def State.rwriteOne (commit : Nat) (acc : Octets × State) (o : Octets) : Octets × State :=
  let r := acc.2.regWrite false (w32 (beAt o 0 4)) (beAt o 4 2) (w32 (beAt o 8 4)) commit
  (acc.1 ++ [BitVec.ofNat 8 r.1.status] ++ zeros 7, r.2)

/-- Entries of `size` octets from octet 8 of a body. -/
def batch (body : Octets) (size : Nat) : List Octets := (upto (beAt body 0 2)).map (fun e => slice body (8 + size * e) size)

/-- A batch body's COUNT and length (Table 18-5). -/
def batchOk (body : Octets) (size : Nat) : Bool :=
  let n := beAt body 0 2
  decide (1 ≤ n ∧ n ≤ 4096) && decide (body.length = 8 + size * n)

/-- RREAD (R515). -/
def execRread (s : State) : Out :=
  outcome true (s.onReq (isCode 0x0001) (fun r => s.lengthOk r (batchOk r.body 8) (
    let q := (batch r.body 8).foldl State.rreadOne ([], s)
    q.2.tRespond r 0 (beOctets 2 (beAt r.body 0 2) ++ zeros 6 ++ q.1))))

/-- RWRITE (R515). -/
def execRwrite (s : State) : Out :=
  outcome true (s.onReq (isCode 0x0002) (fun r => s.lengthOk r (batchOk r.body 12) (
    let q := (batch r.body 12).foldl (State.rwriteOne r.commit) ([], s)
    q.2.tRespond r 0 (beOctets 2 (beAt r.body 0 2) ++ zeros 6 ++ q.1))))

/-! ## Tables (R518) -/

/-- TREAD (R518). -/
def execTread (s : State) : Out :=
  outcome true (s.onReq (isCode 0x0003) (fun r =>
    let b := r.body
    let g := tableTarget b
    if b.length < 16 then s.tRespond r 2 []
    else if g.1 ≠ stOk then s.tRespond r 0 (tableResponse g.1 0)
    else s.lengthOk r (decide (b.length = 16)) (
      let n := beAt b 6 2
      if n = 0 ∨ countLimit g.2.2.2 < n then s.tRespond r 0 (tableResponse stRejected 0)
      else
        let q := s.readEntries g.2.1 (beAt b 4 1) g.2.2.1 n (beAt b 8 4)
        q.2.2.2.tRespond r 0 (tableResponse q.1 q.2.1 ++ q.2.2.1))))

/-- A write of namespace entries from `i` on whose KEYSLOT, SEPEN or SEP change waits for the earlier commands that write in
those namespaces: whether they hold anything is judged at the request's commit number (R41, R67). -/
def State.nsWaits (s : State) (commit : Nat) : Nat → Nat → Octets → Bool
  | 0, _, _ => false
  | n + 1, i, o =>
    (decide (field (w32 (beNat (o.take 4))) 1 19 ≠ field (s.nsEntry i) 1 19) &&
      s.eng.cmds.any (fun c => decide (c.commit < commit) && decide (c.nsid = i) && (c.unbound || clsWrites c.entry.cls) &&
        s.effectDue c)) || s.nsWaits commit n (i + 1) (o.drop 4)

/-- TWRITE (R518). -/
def execTwrite (s : State) : Out :=
  outcome true (s.onReq (isCode 0x0004) (fun r =>
    let b := r.body
    let g := tableTarget b
    let n := beAt b 6 2
    if b.length < 16 then s.tRespond r 2 []
    else if g.1 ≠ stOk then s.tRespond r 0 (tableResponse g.1 0)
    else s.lengthOk r (decide (b.length = 16 + n * g.2.2.2)) (
      if n = 0 ∨ countLimit g.2.2.2 < n then s.tRespond r 0 (tableResponse stRejected 0)
      else
        let kind := beAt b 4 1
        let q := s.writeEntries g.2.1 kind g.2.2.1 g.2.2.2 r.commit n (beAt b 8 4) (b.drop 16)
        let waits := (decide (kind = 1) && s.nsWaits r.commit n (beAt b 8 4) (b.drop 16)) ||
          ((decide (kind = 1) || decide (kind = 2)) && s.tablesWait)
        whenDo (!waits) s (q.2.2.tRespond r 0 (tableResponse q.1 q.2.1)))))

/-! ## Objects (R227, R228) -/

/-- LEN of an object, its words, its entry. -/
def objLen (o : Octets) : Nat := beAt o 10 2
def objWords (o : Octets) : List W32 := leWords (objLen o) (o.drop 32)

/-- The image contains no time-reading word (R157, R226). -/
def detImage (ws : List W32) : Bool := !ws.any (fun w => decide (w.toNat / 2 ^ 24 = 0x90 ∨ w.toNat / 2 ^ 24 = 0x91))

/-- OBJECT: magic, version, CRC, length, reserved octets (Table 7-3); NDET is ignored, and the reserved bits of ATTR count for a
handler image only, a program's ATTR being judged with ENTRY (log 108). -/
def objOk (o : Octets) : Bool :=
  decide (beAt o 0 4 = 0x4E49524D) && decide (beAt o 4 1 = 1) &&
  decide ((crc32c (o.take 16 ++ zeros 4 ++ o.drop 20)).toNat = beAt o 16 4) &&
  decide (o.length = 32 + 4 * objLen o) && allZero (slice o 20 12) &&
  (decide (beAt o 5 1 = 1) || decide (beAt o 6 1 / 16 = 0))

/-- ENTRY for a handler image (R158). -/
def objEntryBad (o : Octets) : Bool :=
  let cls := beAt o 6 1 % 8
  decide (5 < cls) || (decide (beAt o 6 1 / 8 % 2 = 1) && decide (cls ≠ clsOwrite)) || decide (beAt o 8 2 = 0) ||
  decide (objLen o = 0) || decide (16384 < objLen o)

/-- REASON of the object of a binding of KIND `kind`; 0 when all checks pass (Table 7-3). -/
def objReason (o : Octets) (kind : Nat) : Nat :=
  if !objOk o then 1
  else if beAt o 5 1 ≠ kind then 2
  else if objEntryBad o || (decide (kind = 1) && decide (beAt o 6 1 ≠ 0)) then 3
  else if beAt o 12 4 / 2 ^ 16 = 0 then 4
  else 0

def objEntry (o : Octets) : HEntry :=
  { valid := true, det := detImage (objWords o), cls := beAt o 6 1 % 8, dsag := decide (beAt o 6 1 / 8 % 2 = 1)
    budget := beAt o 8 2, len := objLen o, imageId := w32 (beAt o 12 4) }

/-! ## Handler and program binding (R234 to R237) -/

/-- The response of HBIND and HEMPTY: REASON and the entry as it will stand. -/
def State.bindAnswer (s : State) (r : TReq) (reason : Nat) (e : HEntry) : State :=
  s.tRespond r 0 ([BitVec.ofNat 8 reason] ++ zeros 7 ++ beOctets 16 (entryWord e))

/-- A slot changes: staged while the handler table is stopped, else bound at once, when no third image would arise (R159,
R235, R236). -/
def State.changeSlot (s : State) (r : TReq) (slot : Nat) (e : HEntry) (image : Option Image) : State :=
  let h := s.hslot slot
  let before := (s.eng.hstaged.filter (fun x => decide (x.slot = slot))).length
  let shown : HEntry := { e with loads := (h.entry.loads + before + 1) % 2 ^ 32 }
  if (s.fn 49).state ≠ FnState.running then
    State.bindAnswer { s with eng := { s.eng with hstaged := s.eng.hstaged ++ [{ slot := slot, entry := e, image := image }] } } r 0 shown
  else if h.older.isSome || s.tablesWait then s
  else
    match image with
    | some (.words ws) =>
      (match s.placeImage 1 slot r.commit ws with
      | some t => (t.bindSlot r.commit slot e image).bindAnswer r 0 shown
      | none => s)
    | _ => (s.bindSlot r.commit slot e image).bindAnswer r 0 shown

/-- HBIND (R228, R234, R235). -/
def execHbind (s : State) : Out :=
  outcome true (s.onReq (isCode 0x0010) (fun r => State.settleBound (
    let b := r.body
    let slot := beAt b 0 1
    let factory := (b.getD 1 0).getLsbD 0
    s.lengthOk r (decide (8 ≤ b.length) && (!factory || decide (b.length = 8))) (
      if factory then
        let f := factorySlot slot
        if f.image.isNone then s.bindAnswer r 5 (s.hslot slot).entry else s.changeSlot r slot f.entry f.image
      else
        let o := b.drop 8
        let reason := objReason o 0
        if reason ≠ 0 then s.bindAnswer r reason (s.hslot slot).entry
        else s.changeSlot r slot (objEntry o) (some (.words (objWords o)))))))

/-- HEMPTY (R158, R235). -/
def execHempty (s : State) : Out :=
  outcome true (s.onReq (isCode 0x0011) (fun r =>
    (s.lengthOk r (decide (r.body.length = 8)) (s.changeSlot r (beAt r.body 0 1) {} none)).settleBound))

/-- HREAD (R156, Table 7-6). -/
def execHread (s : State) : Out :=
  outcome true (s.onReq (isCode 0x0012) (fun r => s.lengthOk r (decide (r.body.length = 8)) (
    let h := s.hslot (beAt r.body 0 1)
    let older := match h.older with
      | some o => o.1.toNat
      | none => 0
    let images := bit01 h.image.isSome + bit01 h.older.isSome
    s.tRespond r 0 ([0#8, BitVec.ofNat 8 images, 0#8, 0#8] ++ beOctets 4 older ++ beOctets 16 (entryWord h.entry)))))

def State.prog (s : State) (d slot : Nat) : Option Prog := tabGet (fun _ => none) s.eng.progs (progKey d slot)

/-- The management engine of DIE d runs slot `slot`. -/
def State.progRuns (s : State) (d slot : Nat) : Bool :=
  match s.inv (.mgmt d) with
  | some v => (match v.work with
    | .program k _ => decide (k = slot)
    | .command _ => false)
  | none => false

/-- PBIND (R228, R237): waits until the slot's program is not running. -/
def execPbind (s : State) : Out :=
  outcome true (s.onReq (isCode 0x0013) (fun r =>
    let b := r.body
    let d := beAt b 0 1
    let slot := beAt b 1 1
    let o := b.drop 8
    s.lengthOk r (decide (8 ≤ b.length)) (
      let reason := objReason o 1
      let target := !(Wf.die5 d && Wf.progSlot slot)
      if reason ≠ 0 then s.tReason r reason
      else if target then s.tReason r 5
      else if s.progRuns d slot || s.tablesWait then s
      else
        let p : Prog := { words := objWords o, budget := beAt o 8 2, imageId := w32 (beAt o 12 4) }
        match s.placeImage 3 (progKey d slot) r.commit p.words with
        | none => s
        | some t =>
          let older := if d = 0 then t.eng.olderProgs else tabSet (fun _ => none) t.eng.olderProgs (progKey d slot) (s.prog d slot)
          let t : State := { t with eng := { t.eng with
            progs := tabSet (fun _ => none) t.eng.progs (progKey d slot) (some p), olderProgs := older } }
          (t.logTables r.commit [.tableProg (progKey d slot) p]).tReason r 0)))

/-- A program starts on the management engine of DIE d (R175, R521): g0 holds ARG. -/
def State.startProg (s : State) (d slot : Nat) (p : Prog) (req : Option Nat) (commit tag conn : Nat) (arg : W64) : State :=
  s.setInv (.mgmt d) (some {
    work := .program slot req, image := .words p.words, len := p.words.length, cls := clsNone, dsag := false
    budget := p.budget, regs := tabSet (fun _ => 0) [] 0 arg, tag, conn, commit, start := s.clock.cycles })

/-- The management engine of DIE d can run programs. -/
def State.mgmtUp (s : State) (d : Nat) : Bool := !(s.mgmtFault d).retired && !s.unitDown (placeOf d 0 0 0x10 0)

/-- PRUN (R520, R521). -/
def execPrun (s : State) : Out :=
  outcome true (s.onReq (isCode 0x0014) (fun r =>
    let b := r.body
    let d := beAt b 0 1
    let slot := beAt b 1 1
    s.lengthOk r (decide (b.length = 16)) (
      if !(Wf.die5 d && Wf.progSlot slot) then s.tReason r 4
      else match s.prog d slot with
        | none => s.tReason r 1
        | some p =>
          if !s.mgmtUp d then s.tReason r 1
          else whenDo (s.inv (.mgmt d)).isNone s
            (s.startReq.startProg d slot p (some r.commit) r.commit r.tag r.conn (w64 (beAt b 8 8))))))

/-- MP_TRIG_RUN (R520, R524): a PERIOD has elapsed: the program runs, or a run that finds the slot empty or still running
is skipped; on the port die a run starts only between two Transom requests. -/
def execMpTrigRun (die slot : Nat) (s : State) : Out :=
  let t := s.trig die slot
  let skip := s.modTrig die slot (fun t => { t with skips := satAdd 255 t.skips 1 })
  let between := decide (die ≠ 0) || (match s.eng.treqs with
    | r :: _ => !r.started
    | [] => true)
  outcome (Wf.die5 die && Wf.progSlot slot) (whenDo (decide (t.period ≠ 0) && s.mgmtUp die && !decide (s.mode.mode = Mode.holdup)) s
    (match s.prog die slot with
    | none => skip
    | some p =>
      if s.progRuns die slot then skip
      else whenDo ((s.inv (.mgmt die)).isNone && between) s (s.startProg die slot p none s.commitNow 0 0 0)))

/-! ## MODESET (R451 to R453) -/

/-- MODE of a MODESET's body. -/
def modesetMode (r : TReq) : Nat := beAt (fitTo 16 r.body) 0 1

/-- The request is a MODESET that this row takes. -/
def isModeset (p : Nat → Bool) (r : TReq) : Bool := isCode 0x0020 r && p (modesetMode r)

/-- CONFIRM holds: the fused unique ID for RESET and FORMAT, else 0 (Table 15-4). -/
def confirmOk (r : TReq) (uid : Bool) : Bool := decide (beAt r.body 8 8 = if uid then Config.uid.toNat else 0)

/-- The checks of Table 15-4 in the order of REASON, then the effect with its response. -/
def State.modeset (s : State) (r : TReq) (allowed confirm busy : Bool) (t : State) : State :=
  s.lengthOk r (decide (r.body.length = 16))
    (if !allowed then s.tReason r 1 else if !confirm then s.tReason r 2 else if busy then s.tReason r 3 else t)

/-- MODESET_RESET (R451): the response first, RESET 1 ms later. -/
def execModesetReset (s : State) : Out :=
  outcome true (s.onReq (isModeset (fun m => decide (m = 0))) (fun r =>
    s.modeset r true (confirmOk r true) false
      (State.tReason { s with mode := { s.mode with resetScheduled := true } } r 0)))

/-- MODESET_SERVICE (R451): from DRAIN, by the causes; a MODE that is not listed is BADMODE. -/
def execModesetService (s : State) : Out :=
  outcome true (s.onReq (isModeset (fun m => !(decide (m = 0) || decide (m = 7) || decide (m = 9)))) (fun r =>
    s.modeset r (decide (modesetMode r = 5) && decide (s.mode.mode = Mode.drain)) (confirmOk r false) false
      ((s.toModeAt s.servingMode r.commit).tReason r 0)))

/-- MODESET_DRAIN (R452). -/
def execModesetDrain (s : State) : Out :=
  let from_ := decide (s.mode.mode = Mode.service) || decide (s.mode.mode = Mode.degraded)
  outcome true (s.onReq (isModeset (fun m => decide (m = 7))) (fun r =>
    let t : State := { s with mode := { s.mode with drained := false, drainAsked := false } }
    s.modeset r from_ (confirmOk r false) false (((t.toModeAt .drain r.commit).settleDrained).tReason r 0)))

/-- A response leaves in one frame, before its connection is reset. -/
def State.lastFrame (s : State) (r : TReq) (o : Octets) : State :=
  let k := s.conn r.conn
  if k.gen = r.gen ∧ k.live then
    (s.modConn r.conn (fun k => { k with lastRsn := k.lastRsn + 1 })).wotSend r.conn [.rsp true (k.lastRsn + 1) r.tag 0 o]
  else s

/-- Every connection that a class of the new mode does not admit is reset with reason MODE (R110). -/
def State.resetClasses (s : State) (mgmt client : Bool) : State :=
  s.wot.conns.foldl (fun s e =>
    let k := s.conn e.1
    if (if k.mgmt then mgmt else client) && (k.live || decide (k.state = ConnState.opening)) then s.resetConn e.1 6 0 else s) s

/-- MODESET_FORMAT (R453 step 1): only in DRAIN with no client connection open; the response is the last frame. It
waits until every command has run to its end; requests committed after it run on, unanswered (R109, R110). -/
def execModesetFormat (s : State) : Out :=
  let busy := s.wot.conns.any (fun e => !e.2.mgmt && (e.2.live || decide (e.2.state = ConnState.opening)))
  outcome true (s.onReq (isModeset (fun m => decide (m = 9))) (fun r =>
    let t := s.lastFrame r (transomHead 0 r.code r.tag r.commit ++ zeros 8)
    let t := (t.toModeAt .format r.commit).resetClasses true true
    let t : State := { t with
      eng := { t.eng with treqs := t.eng.treqs.drop 1, ctxs := [], mgmt := [], largeQ := [], hstaged := [] }
      wot := { t.wot with outstanding := t.eng.treqs.length - 1, gate := [] }
      locks := []
      sel := { t.sel with stream := [], reserved := [] } }
    s.modeset r (decide (s.mode.mode = Mode.drain)) (confirmOk r true) busy (whenDo (decide (s.eng.cmds = [])) s t)))

/-! ## OTPSET (R465, R466) -/

/-- The octets VALUE of a setting has, and the changes it has left. -/
def otpLength (n : Nat) : Nat := match n with
  | 1 => 8
  | 4 => 128
  | _ => 32

def otpLeft (o : Otp) (n : Nat) : Nat :=
  match n with
  | 1 => o.leftFabDom
  | 2 => o.leftRootMgmt
  | 3 => o.leftMediaRoot
  | _ => o.leftLaneMap

/-- The identity octet of lane l of a lane map (Table 15-15). -/
def laneIdentity (l : Nat) : Byte := BitVec.ofNat 8 (l % 4 * 5)

/-- Within every port group RXPHY and TXPHY are permutations (R466). -/
def laneMapOk (v : Octets) : Bool :=
  (upto 32).all (fun g =>
    let o (k : Nat) : Nat := (v.getD (4 * g + k) 0).toNat
    (upto 4).all (fun j => (upto 4).any (fun k => decide (o k % 4 = j)) && (upto 4).any (fun k => decide (o k / 4 % 4 = j))))

/-- The media root key in force: the factory's, or the one set last (Table 15-13). -/
def Otp.mediaKey (o : Otp) : BitVec 256 := o.mediaRoot.getD Config.factoryMediaRoot

/-- VALUE equals the setting. -/
def otpSame (o : Otp) (n : Nat) (v : Octets) : Bool :=
  match n with
  | 1 => decide (o.fabDom.toNat = beNat v)
  | 2 => decide (o.rootMgmt.toNat = beNat v)
  | 3 => decide (o.mediaKey.toNat = beNat v)
  | _ => (upto 128).all (fun l => tabGet laneIdentity o.laneMap l == v.getD l 0)

/-- The setting takes VALUE and one count is used. -/
def otpPut (o : Otp) (n : Nat) (v : Octets) : Otp :=
  match n with
  | 1 => { o with fabDom := BitVec.ofNat 64 (beNat v), leftFabDom := o.leftFabDom - 1 }
  | 2 => { o with rootMgmt := BitVec.ofNat 256 (beNat v), leftRootMgmt := o.leftRootMgmt - 1 }
  | 3 => { o with mediaRoot := some (BitVec.ofNat 256 (beNat v)), leftMediaRoot := o.leftMediaRoot - 1 }
  | _ => { o with laneMap := (upto 128).foldl (fun t l => tabSet laneIdentity t l (v.getD l 0)) o.laneMap
                  leftLaneMap := o.leftLaneMap - 1 }

/-- A change of the media root key rewraps the key table of every store die: a table write (R325, R328). -/
def State.rewrap (s : State) : State :=
  { s with dies := tabMapAll (fun _ => {}) (fun _ d => if d.live then { d with keySeq := d.keySeq + 1 } else d) s.dies }

/-- OTPSET (R465, R466). -/
def execOtpset (s : State) : Out :=
  outcome true (s.onReq (isCode 0x0021) (fun r =>
    let b := r.body
    let n := beAt b 0 1
    let v := b.drop 8
    let answer (t : State) (reason left : Nat) : State :=
      t.tRespond r 0 ([BitVec.ofNat 8 reason, BitVec.ofNat 8 left] ++ zeros 6)
    let left := otpLeft s.otp n
    let same := otpSame s.otp n v
    let t : State := if n = 2 then s.resetCred 0 else s
    let t : State := if same then t else
      State.otpEvent { t with otp := otpPut s.otp n v } r.commit n (left - 1)
    let t := if n = 3 ∧ !same then t.rewrap else t
    s.lengthOk r (decide (8 ≤ b.length)) (
      if n < 1 ∨ 4 < n then answer s 1 0
      else if v.length ≠ otpLength n then answer s 2 left
      else if n = 4 ∧ !laneMapOk v then answer s 4 left
      else if !same && decide (left = 0) then answer s 3 left
      else answer t 0 (otpLeft t.otp n))))

/-! ## MASTERMOVE (R464) -/

/-- The answer of a MASTERMOVE: HOLDER and REASON. -/
def State.moveAnswer (s : State) (r : TReq) (reason : Nat) : State :=
  s.tRespond r 0 ([BitVec.ofNat 8 s.lease.holder, BitVec.ofNat 8 reason] ++ zeros 6)

/-- MASTERMOVE (R464): the holder's next renewal will be refused; once the lease is granted again, the row answers. -/
def execMastermove (s : State) : Out :=
  outcome true (match s.eng.treqs with
    | r :: _ =>
      let b := r.body
      let d := beAt b 0 1
      let held := decide (s.lease.state = LeaseSt.held)
      let asked : State := { s with lease := { s.lease with
        named := d, refuse := if held then some d else none } }
      if !isCode 0x0022 r || s.inReset then s
      else if r.started then whenDo (held && s.lease.refuse.isNone) s (s.moveAnswer r 0)
      else s.lengthOk r (decide (b.length = 8))
        (if 4 ≤ d ∧ d ≤ 0xFE then s.moveAnswer r 1 else asked.startReq)
    | [] => s)

/-! ## KSERASE (R327) -/

/-- The namespaces of a store die's entries and puts that a key slot encrypts. -/
def State.nsOfKey (s : State) (slot n : Nat) : Bool := decide (nsKeyslot (s.nsEntry n) = slot)

/-- Every object, every pending put and every entry in STATE 2 of the key slot's namespaces goes from store die d at a commit
number; the counts of live objects and puts. -/
def State.eraseDie (s : State) (slot commit : Nat) (acc : Nat × Nat × State) (d : Nat) : Nat × Nat × State :=
  let x := acc.2.2.die d
  let gone := x.dir.filter (fun e => e.2.held && s.nsOfKey slot e.2.nsid)
  let puts := x.allPuts.filter (fun p => s.nsOfKey slot p.nsid)
  let y := puts.foldl (fun x p => x.endPut p) x
  let y := gone.foldl (fun x e => if (x.entry e.1).held then x.freeEntry e.2 else x) y
  let live := (gone.filter (fun e => e.2.live)).map (fun e => e.2.handle)
  let y := y.logRecord commit tableNsid (live.map (fun h => .dirfree h))
  let deltas := (upto 4).flatMap (fun r =>
    let inR (ns : Nat) (key : Octets) : Bool := decide (regionOf (s.stemHashOf ns key) % 4 = r)
    let e := gone.filter (fun e => inR e.2.nsid e.2.key)
    let p := puts.filter (fun p => inR p.nsid p.key)
    let chunks := sumOf (fun e => if e.2.live then chunksOf e.2.length else 0) e + sumOf (fun p => chunksOf p.length) p
    if e = [] ∧ p = [] then [] else
      [({ region := r, chunks := -(chunks : Int), slots := -(e.length : Int), puts := -(p.length : Int) } : Delta)])
  let y : Die := { y with ledger := { y.ledger with stream := insertBy (fun e => e.1) (commit, some deltas) y.ledger.stream } }
  let t := acc.2.2.modDie d (fun _ => y)
  let changes := live.map (fun h => SelChange.removeHandle h)
  (acc.1 + live.length, acc.2.1 + puts.length,
    { t with sel := { t.sel with stream := match t.sel.stream.find? (fun e => e.1 == commit) with
        | some _ => modFirst (fun e => e.1 == commit) (fun e => (e.1, e.2.map (fun l => l ++ changes))) t.sel.stream
        | none => insertBy (fun e => e.1) (commit, some changes) t.sel.stream } })

/-- Store die d takes a new key for the slot from the random source: a table write (R325). -/
def State.newKey (s : State) (slot d : Nat) : State :=
  if (s.die d).live then
    let q := s.random 64
    q.2.modDie d (fun x => { x with keys := tabSet (fun _ => 0) x.keys slot (BitVec.ofNat 512 (beNat q.1)), keySeq := x.keySeq + 1 })
  else s

/-- KSERASE (R327): waits for the earlier commands that name such a namespace. -/
def execKserase (s : State) : Out :=
  outcome true (s.onReq (isCode 0x0023) (fun r =>
    let b := r.body
    let v := beAt b 0 2
    let waits := s.eng.cmds.any (fun c => decide (c.commit < r.commit) && c.open_ && s.nsOfKey v c.nsid)
    let q := (upto 4).foldl (fun acc d => s.eraseDie v r.commit acc d) (0, 0, s)
    let t := (upto 4).foldl (fun s d => s.newKey v d) q.2.2
    s.lengthOk r (decide (b.length = 8))
      (if 1024 ≤ v then s.tRespond r 0 ([1#8] ++ zeros 7 ++ zeros 16)
       else whenDo (!waits) s (t.tRespond r 0 (zeros 8 ++ beOctets 8 q.1 ++ beOctets 8 q.2.1)))))

/-! ## The fabric's requests (R408 to R410) -/

/-- FABFORM (R408). -/
def execFabform (s : State) : Out :=
  outcome true (s.onReq (isCode 0x0030) (fun r =>
    let n := beAt r.body 0 2
    s.lengthOk r (decide (r.body.length = 8))
      (if n = 0 ∨ 4096 < n then s.tReason r 1
       else if s.lastGen.isSome then s.tReason r 2
       else State.tReason { s with fab := { s.fab with formCount := some n } } r 0)))

/-- FABREMOVE (R409, R410). -/
def execFabremove (s : State) : Out :=
  outcome true (s.onReq (isCode 0x0031) (fun r =>
    let u := BitVec.ofNat 64 (beAt r.body 0 8)
    let member := match s.lastGen with
      | some g => g.members.any (fun m => m.uid == u)
      | none => false
    s.lengthOk r (decide (r.body.length = 8))
      (if s.fab.standalone then s.tReason r 2
       else if !member then s.tReason r 1
       else State.tReason { s with fab := { s.fab with removed := s.fab.removed ++ [u] } } r 0)))

/-- The codes of Table 18-3. -/
def transomCodes : List Nat :=
  [0x0001, 0x0002, 0x0003, 0x0004, 0x0010, 0x0011, 0x0012, 0x0013, 0x0014, 0x0020, 0x0021, 0x0022, 0x0023, 0x0030, 0x0031]

/-- NOCODE (R510). -/
def execNocode (s : State) : Out :=
  outcome true (s.onReq (fun r => !transomCodes.contains r.code) (fun r => s.tRespond r 1 []))

end Sys2Proof.Machine
end

