-- ==== Sys2Proof/Machine/Mount.lean ====
section
/-! DEFINITION. From BOOT to service: the mount of a store die (R351 to R361), the end of MOUNT (R358, R410), the 40 s wait
for a generation (R424), the end of FORMAT (R453), the end of LINKUP (R549). -/

namespace Sys2Proof.Machine

/-! ## Replay of effect records (R333, R353, R355) -/

/-- Tables under replay: the handles of runs named by VALUE, ORIGIN and RUNMOVE items, the FLOOR of the VALUE item that
places a handle's current value, and the ORIGIN items met. -/
structure Replay where
  snap : Snapshot
  named : List W32 := []
  values : List (W32 × Nat) := []
  origins : List (Nat × W32 × Nat) := []
deriving DecidableEq, Repr

/-- The entry of handle h changed, when it is held. -/
def Snapshot.modEntry (p : Snapshot) (h : W32) (f : DirEntry → DirEntry) : Snapshot :=
  let e := tabGet (fun _ => ({} : DirEntry)) p.dir (handleSlot h)
  if e.held && decide (e.handle = h) then { p with dir := tabSet (fun _ => {}) p.dir (handleSlot h) (f e) } else p

/-- A package table changed by a record. -/
def Snapshot.table (p : Snapshot) (commit : Nat) (f : Snapshot → Snapshot) : Snapshot :=
  { f p with tablesAt := max p.tablesAt commit }

/-- One item of a record: each sets a state (R333). Part handles name pending puts, which the mount cancels (R357). -/
def Replay.item (rec : EffRec) (p : Replay) : EffItem → Replay
  | .dirent _ e => { p with snap := { p.snap with dir := tabSet (fun _ => {}) p.snap.dir (handleSlot e.handle) e } }
  | .dirfree h =>
    let k := handleSlot h
    { p with
      snap := { p.snap with dir := tabSet (fun _ => {}) p.snap.dir k {}
                            gens := tabSet (fun _ => 0) p.snap.gens k ((field h 28 4 + 1) % 15) }
      values := p.values.filter (fun v => v.1 != h) }
  | .value h _ _ =>
    if 0xF0000000 ≤ h.toNat then p
    else { p with
      snap := p.snap.modEntry h (fun e => { e with origin := none, floor := rec.floor })
      named := h :: p.named
      values := (h, rec.floor) :: p.values.filter (fun v => v.1 != h) }
  | .origin h n => { p with
      snap := p.snap.modEntry h (fun e => { e with origin := some n, floor := rec.floor })
      named := h :: p.named
      values := p.values.filter (fun v => v.1 != h)
      origins := p.origins ++ [(n, h, rec.floor)] }
  | .selrow i rm st pr h v =>
    { p with snap := { p.snap with rows := tabSet (fun _ => 0) p.snap.rows i (if v then packRow rm st pr h else 0) } }
  | .runmove h first =>
    { p with snap := p.snap.modEntry h (fun e => { e with first := first }), named := h :: p.named }
  | .tableNs i v => { p with snap := p.snap.table rec.commit (fun q => { q with ns := tabSet nsDefault q.ns i v }) }
  | .tableHandler i v => { p with snap := p.snap.table rec.commit (fun q => { q with handlers := tabSet factorySlot q.handlers i v }) }
  | .tableCred i v => { p with snap := p.snap.table rec.commit (fun q => { q with creds := tabSet (fun _ => {}) q.creds i v }) }
  | .tableProg i v => { p with snap := p.snap.table rec.commit (fun q => { q with progs := tabSet (fun _ => none) q.progs i (some v) }) }
  | .tableHkey k => { p with snap := p.snap.table rec.commit (fun q => { q with hkey := k }) }
  | .retire _ _ => p

/-- Records in log order over the tables of an epoch. -/
def replay (snap : Snapshot) (recs : List EffRec) : Replay :=
  recs.foldl (fun p r => r.items.foldl (fun p i => p.item r i) p) { snap := snap }

/-! ## Pieces of the two retained epochs (R353, Table 11-6) -/

/-- The entries of a table whose piece is listed come from the older epoch, the others from the newer one. -/
def mixTab {α : Type} [DecidableEq α] (f : Nat → α) (pieces : List Nat) (piece : Nat → List Nat) (new old : Tab α) : Tab α :=
  let older (k : Nat) : Bool := (piece k).any pieces.contains
  (old.filter (fun e => older e.1)).foldl (fun t e => tabSet f t e.1 e.2) (new.filter (fun e => !older e.1))

/-- Pieces that hold octets of map entry i. -/
def mapPieces (i : Nat) : List Nat := [5 * i / 65536, (5 * i + 4) / 65536]

/-- First pieces of the partitions of Table 11-6: directory, row copies, handler images, programs, package tables. -/
def dirPiece : Nat := 327680
def rowPiece : Nat := 393216
def handlerPiece : Nat := 393728
def progPiece : Nat := 394240
def tablePiece : Nat := 394368

/-- The piece of a row copy on its store die. -/
def pieceOfRow (i : Nat) : Nat := rowPiece + i % (4 * rowsPerBank) / 2048

/-- What the mount of store die d reads: each piece from the newer epoch when it reads there, else from the older one (R353). A
handler entry goes with the handler table, its image with the image's piece; the order of images and programs in their pieces is
the model's own (DESIGN CHOICE, log 122). -/
def mixEpochs (d : Nat) (pieces : List Nat) (new old : Snapshot) : Snapshot :=
  let slot (k : Nat) : List Nat := [dirPiece + k / 1024]
  let one (base : Nat) (k : Nat) : List Nat := [base + k]
  let tables := (upto 6).any (fun i => pieces.contains (tablePiece + i))
  { dir := mixTab (fun _ => {}) pieces slot new.dir old.dir
    gens := mixTab (fun _ => 0) pieces slot new.gens old.gens
    map := mixTab (fun _ => {}) pieces mapPieces new.map old.map
    rows := mixTab (fun _ => 0) pieces (fun k => [pieceOfRow k]) new.rows old.rows
    ns := if pieces.contains tablePiece then old.ns else new.ns
    handlers := if pieces.contains (tablePiece + 1) then old.handlers
      else mixTab factorySlot pieces (fun k => [handlerPiece + 2 * k, handlerPiece + 2 * k + 1]) new.handlers old.handlers
    creds := if (upto 3).any (fun i => pieces.contains (tablePiece + 2 + i)) then old.creds else new.creds
    progs := mixTab (fun _ => none) pieces (fun k => if k / 64 = d + 1 then one progPiece (k % 64 * 2) else []) new.progs old.progs
    hkey := if pieces.contains (tablePiece + 5) then old.hkey else new.hkey
    tablesAt := if tables then old.tablesAt else new.tablesAt }

/-! ## What the media hold -/

/-- The usable image of store die d with the highest LASTCOMMIT (R349, R353): its own, or a PREDUMP of the next die. EPOCH is
compared with the newest epoch of the die that wrote the image (Table 11-8, log 63). -/
def State.mountImage (s : State) (d : Nat) : Option ImageAnchor :=
  let x := s.die d
  let y := s.die ((d + 1) % 4)
  bestOf (fun i => (i.lastCommit : Int)) (
    x.images.filter (fun i => decide (i.die = d) && !i.predump && decide (i.epoch = x.epochNo)) ++
    y.images.filter (fun i => decide (i.die = d) && i.predump && decide (i.epoch = y.epochNo)))

/-- P and Q of stripe j stand programmed and none of them is among the slots that do not decode, as far as the stripe's erasures
leave them (R356). -/
def Die.parityReads (d : Die) (x : Super) (j : Nat) (unreadable : List Nat) : Bool :=
  decide (14 * (j + 1) ≤ x.filled) && [false, true].all (fun q => match d.stripePca x j (parityChannel j q) with
    | some p => (d.slot p).isSome && !unreadable.contains p
    | none => true)

/-- Slots after the mount has read the tags (Table 11-11 step 5, R356): one not yet named counts when its QLC group is whole, its
stripe's parity and it decode, and is gone otherwise, for no tag search accepts it; one that does not read stays as unreadable. A
summary that does not read is not used (R291). -/
def Die.readTags (d : Die) (unreadable : List Nat) : Die :=
  let counts (pca : Nat) (t : Slot) : Bool := match d.superOf (pcaBlock pca) with
    | some k => (match d.super k with
      | some x => x.ez || t.kind = .summary || d.parityReads x (pcaSlot pca) unreadable
      | none => false)
    | none => false
  { d with slots := tabMapAll (fun _ => none) (fun pca o => match o with
      | some t =>
        if t.named || (t.verified && decide (t.kind ≠ .data)) then some { t with unreadable := t.unreadable || unreadable.contains pca }
        else if counts pca t && d.groupWhole pca t.slc && !unreadable.contains pca then some { t with verified := true, named := true }
        else none
      | none => none) d.slots }

/-- A slot holds journal chunk n. -/
def Die.journalHeld (d : Die) (n : Nat) : Bool :=
  d.slots.any (fun e => match e.2 with
    | some t => t.sys && !t.unreadable && decide (t.chunk = 2 ^ 20 + n % 2 ^ 20)
    | none => false)

/-- The slots that decode with the parity of their stripe, off die positions with three erasures (R321, R356). -/
def Die.readable (d : Die) (unreadable : List Nat) : List (Nat × Slot) :=
  d.slots.filterMap (fun e => match e.2 with
    | some t =>
      let parity := match d.superOf (pcaBlock e.1) with
        | some k => (match d.super k with
          | some x => x.ez || d.parityReads x (pcaSlot e.1) unreadable
          | none => false)
        | none => false
      if t.sys || t.unreadable || !parity || decide (3 ≤ d.erasures (pcaChannel e.1 / 16) (pcaPos e.1)) then none
      else some (e.1, t)
    | none => none)

/-- R356: the slots that can hold chunk k of a live entry, given the FLOOR of the VALUE item that places its value. -/
def chunkCandidates (slots : List (Nat × Slot)) (e : DirEntry) (floor : Option Nat) (k : Nat) : List (Nat × Slot) :=
  slots.filter (fun c =>
    let t := c.2
    decide (t.chunk = k) &&
    (match floor with
      | some f => decide (f ≤ t.seq)
      | none => true) &&
    (match e.origin with
      | some n => (decide (t.handle = e.handle) && decide (e.floor ≤ t.seq)) ||
          (decide (t.handle = partHandle n) && decide (t.seq < e.floor))
      | none => decide (t.handle = e.handle)))

/-- The candidate with the highest SEQ. -/
def newestSlot (l : List (Nat × Slot)) : Option (Nat × Slot) := bestOf (fun c => (c.2.seq : Int)) l

/-- R356 for one chunk: the map, and the map indices found lost with their handles. `all` settles every chunk. -/
def Die.settleChunk (acc : Die × List (Nat × W32)) (slots : List (Nat × Slot)) (e : DirEntry) (floor : Option Nat)
    (all : Bool) (seqStart k : Nat) : Die × List (Nat × W32) :=
  let d := acc.1
  let i := e.first + k
  let cands := chunkCandidates slots e floor k
  if all || cands.any (fun c => decide (seqStart ≤ c.2.seq)) then
    match newestSlot cands with
    | some c => (d.mapTo i c.1 c.2.slc, acc.2)
    | none =>
      let d := d.clearRun i 1
      if (d.extentFor (.object e.handle) k).isSome || decide (e.length = 0) then (d, acc.2) else (d, acc.2 ++ [(i, e.handle)])
  else acc

/-- The map entries of every live run settled (R356): in a native mount all of them, in a clean mount the two kinds that the
rule names. -/
def Die.settleMap (d : Die) (p : Replay) (native : Bool) (seqStart : Nat) (unreadable : List Nat) : Die × List (Nat × W32) :=
  let slots := d.readable unreadable
  (d.dir.filter (fun e => e.2.live)).foldl (fun acc e =>
    let floor := (p.values.find? (fun v => v.1 == e.2.handle)).map (fun v => v.2)
    (upto (chunksOf e.2.length)).foldl (fun acc k =>
      Die.settleChunk acc slots e.2 floor (native || p.named.contains e.2.handle) seqStart k) acc) (d, [])

/-- Key hash of the owner of a slot, when its handle names a live entry, or its part handle an origin of one (R357). -/
def Die.slotOwner (d : Die) (origins : List (Nat × W32 × Nat)) (t : Slot) : Option W64 :=
  if 0xF0000000 ≤ t.handle.toNat then
    ((origins.reverse.find? (fun o => partHandle o.1 == t.handle)).bind (fun o => d.liveBy o.2.1)).map (fun e => e.keyHash)
  else (d.liveBy t.handle).map (fun e => e.keyHash)

/-- The superblock table rebuilt (R324): no stream is open; the filter holds every owner's key hash, or every bit where an
owner cannot be resolved (R357). -/
def Die.rebuildSupers (d : Die) (g : Geo) : Die :=
  let origins := d.originEntries ++ d.originTail
  { d with
    regions := tabMapAll (fun _ => {}) (fun _ r => { r with host := none, copy := none, cold := none, image := none, levelling := false }) d.regions
    supers := tabMapAll (fun _ => none) (fun _ o => o.map (fun x =>
      let owners := ((d.superSlots x).filter (fun e => !e.2.sys)).map (fun e => d.slotOwner origins e.2)
      { x with
        closed := true, closeTime := if x.closed then x.closeTime else g.now
        summarised := x.summarised || (x.closed && !x.abandoned && (d.superSlots x).all (fun e => e.2.verified && !e.2.unreadable))
        refresh := false, purge := [], emptied := none
        filter := if owners.any (fun o => o.isNone) then upto 4096 else (owners.flatMap (fun o => filterBits (o.getD 0))).eraseDups })) d.supers }

/-! ## EZ-64 media (R360, R361) -/

/-- EZ-64 superblocks listed as closed superblocks of their regions. -/
def Die.addEzSuper (d : Die) (e : EzSuper) : Die :=
  match leastFrom (d.supers.length + 1) 0 (fun n => (d.super (superKey e.region n)).isNone) with
  | some n =>
    let x : Super := { region := e.region, pos := e.pos, slc := false, stream := .cold, blocks := e.blocks, closed := true
                       summarised := true, ez := true }
    d.setSuper (superKey e.region n) (some x)
  | none => d

/-- An EZ-64 object enters the directory at slot k with its chunks in the map. -/
def State.addEzObject (s : State) (die : Nat) (d : Die) (k : Nat) (o : EzObject) : Die :=
  let h := handleOf 0 die k
  let r := d.allocRun 0 [] (chunksOf o.length)
  let hash := s.keyHashOf o.nsid o.key
  let e : DirEntry := { state := 1, keyHash := hash, length := o.length, nsid := o.nsid, version := o.version, first := r.1
                        handle := h, key := o.key, usermeta := o.usermeta }
  let slot (i : Nat) (data : Octets) : Slot :=
    { handle := h, chunk := i, slc := false, sys := false, keyrec := decide (i = 0), seq := 0, nsid := o.nsid, keyHash := hash
      kslot := o.kslot, key := tabGet (fun _ => 0) d.keys o.kslot, data
      record := if i = 0 then keyRecord o.version o.usermeta o.key else [], verified := true, named := true }
  (o.chunks.mapIdx (fun i c => (i, c))).foldl (fun d c =>
    (d.setSlot c.2.1 (some (slot c.1 c.2.2))).mapTo (r.1 + c.1) c.2.1 false) (r.2.setEntry k e)

/-- The first IMPORT mount of a die takes what its EZ-64 media hold. -/
def State.takeEz (s : State) (die : Nat) (ez : EzMedia) (d : Die) : Die :=
  if d.epochs = [] ∧ d.dir = [] then
    let d : Die := { d with keys := ez.keys.foldl (fun t k => tabSet (fun _ => 0) t k.1 k.2) d.keys }
    let d := ez.supers.foldl Die.addEzSuper d
    (ez.objects.mapIdx (fun k o => (k, o))).foldl (fun d e => s.addEzObject die d e.1 e.2) d
  else d

/-! ## The mount of one store die (Table 11-11) -/

/-- The capacity ledger rebuilt from the directory. -/
def State.rebuildLedger (s : State) (d : Nat) : State :=
  let x := s.die d
  let count (r : Nat) : Nat := sumOf (fun e => if regionOf (s.stemHashOf e.2.nsid e.2.key) % 4 = r then chunksOf e.2.length else 0)
    (x.dir.filter (fun e => e.2.live))
  let l : Ledger := { x.ledger with
    lcount := (upto 4).foldl (fun t r => tabSet (fun _ => 0) t r (count r)) []
    slots := x.slotCount, puts := 0, stream := [], caps := [] }
  (upto 4).foldl (fun s r => s.setCapacity d r) (s.modDie d (fun x => { x with ledger := l }))

/-- Package tables: each comes from the die that recorded the highest commit number for it (R355). Until a die's tables are taken,
entries 1 to 4095 of the credential table read VALID 0 (DESIGN CHOICE, log 113). -/
def State.takeTables (s : State) (p : Snapshot) : State :=
  if s.tables.changedAt ≤ p.tablesAt then
    State.releaseImages { s with
      tables := { ns := p.ns, creds := p.creds, hkey := p.hkey, changedAt := p.tablesAt }
      eng := { s.eng with handlers := p.handlers, progs := p.progs } }
  else s

/-- Rows of the die's banks, and its banks in service. -/
def State.takeRows (s : State) (d : Nat) (rows : Tab (BitVec 186)) : State :=
  let mine (t : Tab (BitVec 186)) (own : Bool) : Tab (BitVec 186) := t.filter (fun e => decide (bankOf e.1 / 4 = d) == own)
  let put (t : Tab (BitVec 186)) : Tab (BitVec 186) := (mine rows true).foldl (fun t e => tabSet (fun _ => 0) t e.1 e.2) (mine t false)
  let used := (s.sel.used.filter (fun e => decide (bankOf e.1 / 4 ≠ d))) ++
    ((mine rows true).filter (fun e => rowValid e.2)).map (fun e => (e.1, true))
  { s with sel := { s.sel with rows := put s.sel.rows, copies := put s.sel.copies, used := sortBy (fun e => e.1) used } }

def State.banksIn (s : State) (d : Nat) : State :=
  (upto 4).foldl (fun s k =>
    let t := s.modBank (4 * d + k) (fun b => { b with inService := !b.retired, reloading := false })
    if (s.bank (4 * d + k)).retired then t else t.unmaskUnit (bankPlace (4 * d + k))) s

/-- The kind of mount: 0 clean, 1 native, 2 IMPORT (Table 11-10). -/
def mountKind (d : Die) (find : MountFind) : Nat := if d.ez64 then 2 else bit01 find.mapPieceLost

/-- Table 11-11 on store die d: base tables, replay, map, the changes of R357, numbers (R358). The home part that is still
live counts as the image, with its numbers. -/
def State.mountTables (s : State) (d : Nat) (find : MountFind) : State :=
  let g := s.geo
  let old := s.takeEz d find.ez (s.die d)
  let tagged := old.readTags find.unreadable
  let x := { tagged with journal := tagged.journal.filter (fun j => !old.journalBusy j.1 || tagged.journalHeld j.1) }
  let image := if find.imageReads then s.mountImage d else none
  let base : Snapshot × Nat × Nat := match x.epochs with
    | e :: o :: _ => if find.older = [] then (e.snap, e.seqStart, e.jStart) else (mixEpochs d find.older e.snap o.snap, o.seqStart, o.jStart)
    | [e] => (e.snap, e.seqStart, e.jStart)
    | [] => ({ dir := x.dir, map := x.map, ns := s.tables.ns, handlers := s.eng.handlers, creds := s.tables.creds }, 0, 0)
  let held := if x.live then x.log else match image with
    | some i => i.records
    | none => []
  let journal := (x.journal.filter (fun j => decide (base.2.2 ≤ j.1))).flatMap (fun j => j.2)
  let p := replay base.1 (journal ++ held)
  let y : Die := { x with
    dir := p.snap.dir, gens := p.snap.gens, map := p.snap.map, puts := [], cache := [], log := held, epochOpen := none
    extents := if x.live then x.extents else match image with
      | some i => i.extents
      | none => []
    originTail := p.origins.filter (fun o => !x.originEntries.contains o) }
  let keep (e : Extent) : Bool := match e.owner with
    | .object h => e.current && (y.liveBy h).isSome
    | .image _ _ => true
    | .part _ | .command _ | .staged _ => false
  let y : Die := { y with extents := (y.extents.filter keep).map (fun e => { e with homeGood := true, mirrorGood := true, draining := false }) }
  let cleared := (y.dir.filter (fun e => e.2.live && e.2.cached)).map (fun e => ({ e.2 with cached := false, cacheRef := 0 } : DirEntry))
  let freed := (y.dir.filter (fun e => decide (e.2.state = 2))).map (fun e => e.2)
  let y := cleared.foldl (fun d e => d.setEntry (handleSlot e.handle) e) y
  let y := freed.foldl (fun d e => d.freeEntry e) y
  let q := y.settleMap p find.mapPieceLost base.2.1 find.unreadable
  let z := q.1.rebuildSupers g
  let z := z.supers.foldl (fun d k => d.settleEmptied k.1) z
  let z := z.logRecord 0 tableNsid (cleared.map (fun e => .dirent d e) ++ freed.map (fun e => .dirfree e.handle))
  let ends : Nat × Nat × Nat := match image, x.epochs with
    | some i, _ => (i.seqEnd, i.serialNext, i.commitEnd)
    | none, e :: _ => (e.seqEnd, e.serialNext, e.commitEnd)
    | none, [] => (0, 0, 0)
  let z : Die := if x.live then z else { z with
    seqNext := ends.1 + 1, seqEnd := ends.1 + 2 ^ 32, serialNext := (ends.2.1 + 1) % 0x0FFFFFFF, commitEnd := ends.2.2
    jnext := x.journal.foldl (fun m j => max m (j.1 + 1)) base.2.2
    logTail := match image with
      | some i => i.logTail
      | none => 0 }
  let unswept (o : Nat × W32 × Nat) : Bool := decide (z.serialNext ≤ o.1) && decide (o.1 < 2 ^ 24)
  let z : Die := { z with sweepTo := if (z.originEntries ++ z.originTail).any unswept then 0 else 2 ^ 24 }
  let z : Die := { z with live := true, ready := true, online := true, dumped := false
                          regions := (upto 4).foldl (fun t r => tabMod (fun _ => {}) t r (fun k => { k with reserve := true })) z.regions }
  let t := ((s.modDie d (fun _ => z)).takeTables p.snap).takeRows d p.snap.rows
  let t := ((t.rebuildLedger d).banksIn d).modDie d (fun x => x.openStreams g)
  let region (h : W32) : Nat := match z.liveBy h with
    | some e => regionOf (s.stemHashOf e.nsid e.key) % 4
    | none => 0
  q.2.foldl (fun s l => s.raise 0x0203 (srcOf 0x07 (globalRegion d (region l.2))) l.1 l.2.toNat 0 0) t

/-- The die is ready: its kind of mount and a lost image are recorded (R351, R359); a remounted die returns (R473). -/
def State.mountDie (s : State) (d : Nat) (find : MountFind) : State :=
  let x := s.die d
  let src := srcOf 0x01 ((d + 1) * 256)
  let t := s.mountTables d find
  let t := if find.imageReads || x.live then t else match s.mountImage d with
    | some i => t.raise 0x0213 src i.die (i.lastCommit % 2 ^ 32) (i.lastCommit / 2 ^ 32) 0
    | none => t
  let t := t.raise (0x0210 + mountKind x find) src (x.epochNo % 2 ^ 32) find.ms 0 0
  let t : State := if x.ez64 then { t with mode := { t.mode with importing := true } } else t
  (if x.cause = 3 then t.dieOffline d 0 else t.settleCauses).settleImport d

/-- What keeps store die d from mounting: cause 5 unformatted (R326, R359), cause 3 for the other failures. -/
def State.mountStop (s : State) (d : Nat) (find : MountFind) : Option Nat :=
  let x := s.die d
  if x.ez64 && s.otp.importDis then some 3
  else if !x.ez64 && (!find.keyTable || !find.anchor || decide (x.epochs = [])) then some 5
  else if find.otherPieceLost then some 3
  else none

/-- The die may mount now: in MOUNT or IMPORT with nothing against it, or as a remount. -/
def State.mayMount (s : State) (d : Nat) : Bool :=
  let x := s.die d
  let mounting := (decide (s.mode.mode = Mode.mount) || decide (s.mode.mode = Mode.imports)) && !x.ready && decide (x.cause = 0)
  let remount := decide (x.cause = 3) && !s.inReset && !decide (s.mode.mode = Mode.holdup) && !s.mode.mode.beforeLinkup &&
    !decide (s.mode.mode = Mode.linkup) && !decide (s.mode.mode = Mode.format)
  !x.inReset && !x.stackLost && !(s.mgmtFault (d + 1)).retired && (mounting || remount)

/-! ## The end of MOUNT (R358, R410) -/

/-- A standalone package forms a generation of itself at address 0 (R410), through its fabric record (R405). -/
def State.standAlone (s : State) : State :=
  if (upto 128).any (fun m => s.macPresent m && (s.mac m).live.fabMac.getLsbD 0) then s
  else
    let n := match s.lastGen with
      | some g => g.num + 1
      | none => 1
    let t : State := { s with fab := { s.fab with standalone := true, fillDone := true } }
    t.recordLater (.adopt { num := n, repl := field s.fab.ctrlLive 0 2, members := [{ t.memberOf Config.uid 0 with flags := t.ownFlags }] })

/-- Every store die in service is ready: the sequencer resumes above the highest COMMITEND unless FORMAT started it anew
(R548), each die begins an epoch, a standalone package forms its generation (R55, R358, R410). -/
def State.settleMount (s : State) : State :=
  let ready := (upto 4).all (fun d => decide ((s.die d).cause ≠ 0) || (s.die d).ready)
  if (decide (s.mode.mode = Mode.mount) || decide (s.mode.mode = Mode.imports)) && !s.mode.mounted && ready then
    let top := (upto 4).foldl (fun m d => max m (s.die d).commitEnd) 0
    let t : State := { s with
      wot := if s.wot.resumed then s.wot else { s.wot with lastCommit := top, blockEnd := top, resumed := true }
      mode := { s.mode with mounted := true }
      dies := tabMapAll (fun _ => {}) (fun _ d => if d.online then { d with epochDue := true } else d) s.dies }
    (t.standAlone.settleServe.settleSel).ownChanged
  else s

/-- MOUNT_DIE_READY (R351 to R361): the die is ready, or offline for what it found; with the last die MOUNT ends. -/
def execMountDieReady (die : Nat) (find : MountFind) (s : State) : Out :=
  let t := if s.mayMount die then
      match s.mountStop die find with
      | some c =>
        let u := (s.modDie die (fun d => { d with unformatted := decide (c = 5), live := if c = 5 then false else d.live })).banksIn die
        u.dieOffline die c
      | none =>
        let u := s.mountDie die find
        if u.mode.mounted then u.ownChanged else u
    else s
  outcome (Wf.die die) t.settleMount

/-- NOGEN_TIMEOUT (R424, Table 15-2): 40 s after the end of MOUNT no committed generation names the package. -/
def execNogenTimeout (s : State) : Out :=
  let t := (s.setCause 6 true).settleReadOnly
  outcome true (whenDo
    ((decide (s.mode.mode = Mode.mount) || decide (s.mode.mode = Mode.imports)) && s.mode.mounted && s.selfMember.isNone) s
    (t.toMode .degraded))

/-- LINKUP_TIMEOUT (R549): 2 s after LINKUP began. -/
def execLinkupTimeout (s : State) : Out := outcome true (whenDo (decide (s.mode.mode = Mode.linkup)) s s.leaveLinkup)

/-! ## The end of FORMAT (R453) -/

/-- The HKEY secret of a fabric domain ID (R201). -/
def hkeySecret (dom : BitVec 64) : BitVec 128 :=
  BitVec.ofNat 128 (beNat (hkdfExpand (hkdfExtract (zeros 32) (beOctets 8 dom.toNat)) (ascii "nirm hkey") 16))

/-- Every key of the die drawn afresh (R325): 1,025 keys of 64 octets. -/
def State.drawKeys (s : State) : Tab (BitVec 512) × State :=
  (upto 1025).foldl (fun acc k =>
    let q := acc.2.random 64
    (tabSet (fun _ => 0) acc.1 k (BitVec.ofNat 512 (beNat q.1)), q.2)) ([], s)

/-- Blocks of a die that carry the factory bad-block mark are retired (R291, R453): `place` names a block's flash die. -/
def Die.markFactory (d : Die) (place : Nat → W32) : Die :=
  (d.flash.flatMap (fun f => f.2.marked.map (fun b => f.1 * 16384 + b))).foldl (fun d b =>
    if (d.block b).bad then d
    else { d.modBlock b (fun k => { k with bad := true }) with retired := d.retired ++ [(place b, b % 16384)] }) d

/-- What FORMAT leaves of a die: new keys, the retirements, an EPOCH 1 with empty tables whose journal starts with the RETIRE
items; every other block is free, to be erased before its first use, and the flash unique IDs are recorded (R275). -/
def Die.format (d : Die) (keys : Tab (BitVec 512)) (hkey : BitVec 128) : Die :=
  let retire : EffRec := { commit := 0, floor := 1, nsid := tableNsid, items := d.retired.map (fun r => .retire r.1 r.2) }
  let e : Epoch := { num := 1, seqStart := 1, jStart := 0, commitEnd := 0, seqEnd := 0, serialNext := 0, snap := { hkey := hkey } }
  let p := { d with pairs := [] }.choosePairs
  { inReset := d.inReset, pairs := p.pairs, anchorUsed := 1, cause := d.cause, stackTrained := d.stackTrained, stackLost := d.stackLost, stackCause := d.stackCause
    stackTemp := d.stackTemp, cascade := d.cascade, links := d.links
    pseudo := d.pseudo, channels := d.channels, keys := keys, keySeq := d.keySeq + 1
    flash := tabMapAll (fun _ => {}) (fun _ f => { f with recorded := f.unique }) d.flash
    blocks := tabMapAll (fun _ => {}) (fun _ b => { b with reads := 0, mode := none, opened := 0 }) d.blocks
    regions := tabMapAll (fun _ => {}) (fun _ r => ({ cfg := r.cfg, live := r.live } : Region)) d.regions
    retired := d.retired, ledger := { ds := d.ledger.ds, lcap := d.ledger.lcap }
    journal := [(0, [retire])], jnext := 1, epochs := [e] }

/-- FORMAT_COMPLETE (R453): when the requests committed before it have run (R109), the package enters MOUNT with a new history. A die that no link reaches takes no part; one that
was unformatted or did not mount can mount now. -/
def execFormatComplete (s : State) : Out :=
  let hkey := hkeySecret s.otp.fabDom
  let t := (upto 4).foldl (fun s d =>
    if (s.die d).cause = 1 then s else
      let q := (if 3 ≤ (s.die d).cause then s.dieOffline d 0 else s).drawKeys
      q.2.modDie d (fun x => (x.markFactory (fun b => w32 (s.fullPlace (flashPlace d (b / 16384))))).format q.1 hkey)) s
  let t : State := { t with
    tables := { hkey := hkey }
    eng := { t.eng with handlers := [], progs := [], olderProgs := [] }
    sel := { t.sel with rows := [], copies := [], used := [] }
    wot := { t.wot with lastCommit := 0, blockEnd := 0, resumed := true, numbered := false }
    mode := { t.mode with mounted := false, drained := false, drainAsked := false, importing := false } }
  let t := ((t.setCause 5 false).settleCauses).toMode .mount
  outcome true (whenDo (decide (s.mode.mode = Mode.format) && decide (s.eng.treqs = [])) s t)

end Sys2Proof.Machine
end

