-- ==== Sys2Proof/Machine/Power.lean ====
section
/-! DEFINITION. Power, pins, resets, HOLDUP, the reference clock and temperature: the commands of chapters 11, 15, 17, 19. -/

namespace Sys2Proof.Machine

/-- POWER_ON (R495). -/
def execPowerOn (s : State) : Out := outcome true s.powerUp

/-- PORST_N (R495, R497): low resets at once, the root PLL and the time base with it; the time base starts at 0 when the
ball goes high (R492). -/
def execPorstN (level : Bool) (s : State) : Out :=
  let t : State := { s with pins := { s.pins with porst := level } }
  outcome true (if level then State.settleAlert { t with clock := { t.clock with tb := 0 } } else t.enterReset false false false)

/-- WRST_N (R495 to R497). -/
def execWrstN (level : Bool) (s : State) : Out :=
  let t : State := { s with pins := { s.pins with wrst := level } }
  outcome true (if !level && s.resetMayBegin then t.enterReset true true false else t)

/-- PFAIL_N (R345, R498): low starts HOLDUP. -/
def execPfailN (level : Bool) (s : State) : Out :=
  let t : State := { s with pins := { s.pins with pfail := level } }
  outcome true (if !level && s.holdupMayBegin then t.enterHoldup else t)

/-- SUPPLY_TRIP (R539): a die's monitor sees a rail out of range, or all of them back; a trip that starts HOLDUP sets
TRIPPED. -/
def execSupplyTrip (die : Nat) (inRange : Bool) (s : State) : Out :=
  let t : State := { s with pins := { s.pins with supplyBad := tabSet (fun _ => false) s.pins.supplyBad die (!inRange) } }
  outcome (Wf.die5 die)
    (if !inRange && s.holdupMayBegin then (t.enterHoldup).modMon die (fun m => { m with tripped := true }) else t)

/-- SLC_PROGRAMS_END (Table 11-9 step 5): each store die starts its dump; with none to write the dump has ended. -/
def execSlcProgramsEnd (s : State) : Out :=
  outcome true (whenDo (decide (s.mode.dump = DumpPhase.programs)) s
    { s with mode := { s.mode with dump := if s.dumpsOwed then .dumping else .done } })

/-- DUMP_DONE (R346): in HOLDUP the die's IMAGE anchor is programmed. -/
def execDumpDone (die : Nat) (s : State) : Out :=
  let d := s.die die
  let t := s.modDie die (fun d => d.dump s.geo die)
  outcome (Wf.die die) (whenDo
    (decide (s.mode.mode = Mode.holdup) && decide (s.mode.dump = DumpPhase.dumping) && d.live && !d.dumped) s
    { t with mode := { t.mode with dump := if t.dumpsOwed then .dumping else .done } })

/-- HOLDUP_RESTART (Table 11-9 step 7): with power back, the package resets itself; the dump is already written. -/
def execHoldupRestart (s : State) : Out :=
  outcome true (whenDo
    (decide (s.mode.mode = Mode.holdup) && decide (s.mode.dump = DumpPhase.done) && s.pins.pfail && s.suppliesInRange)
    s (s.enterReset true false false))

/-- RESET_DUMP_DONE (R496): the die's reset dump ends and the die enters reset. -/
def execResetDumpDone (die : Nat) (s : State) : Out :=
  let d := s.die die
  let t := s.modDie die (fun d => (d.dump s.geo die).reset)
  outcome (Wf.die die) (whenDo
    (s.inReset && decide (s.mode.dump = DumpPhase.dumping) && d.live && !d.dumped) s
    { t with mode := { t.mode with dump := if t.dumpsOwed then .dumping else .done } })

/-- RESET_RELEASE (R498): BOOT begins; the CLKT windows start (R469) and the store dies leave reset. -/
def execResetRelease (s : State) : Out :=
  let t : State := { s with
    clock := { s.clock with cycles := 0 }
    dies := (upto 4).foldl (fun t d => tabMod (fun _ => {}) t d (fun x => { x with inReset := false })) s.dies }
  outcome true (whenDo s.releaseReady s (t.toMode .boot))

/-- RESET_DELAY_END (R451): 1 ms after the response of a MODESET RESET the package enters RESET. -/
def execResetDelayEnd (s : State) : Out :=
  outcome true (whenDo (s.mode.resetScheduled && s.resetMayBegin) s (s.enterReset true true false))

/-- REFCLK_LOSS (R491): the root PLL enters holdover. -/
def execRefclkLoss (s : State) : Out :=
  outcome true (whenDo s.clock.rootLock s
    { s with clock := { s.clock with rootLock := false, holdover := true, refLoss := true } })

/-- REFCLK_RELOCK (R491): the root PLL is locked to a reference that has been valid for 10 ms. -/
def execRefclkRelock (s : State) : Out :=
  outcome true { s with clock := { s.clock with rootLock := true, holdover := false } }

/-- 97, 100 and 115 degrees in quarters (R545). -/
def tj97 : Int := 388
def tj100 : Int := 400
def tj115 : Int := 460

/-- TEMP_SAMPLE (R545): a die's sample sets TJ and HOT, a new HOT sets THERMAL; THERMTRIP_N is driven when two samples 1 ms
apart are at 115 degrees or above, and released when every die is below 100 degrees. A store die's sample also takes the
temperature of its stack, a free value (Table 18-18, log 3). -/
def execTempSample (die : Nat) (tj : BitVec 12) (s : State) : Out :=
  let old := s.mon die
  let v := tj.toInt
  let hot := if tj100 ≤ v then true else if v ≤ tj97 then false else old.hot
  let hot115 := decide (tj115 ≤ v)
  let t := s.modMon die (fun m => { m with tj := tj, hot := hot, over115 := hot115 })
  let t := if hot && !old.hot then t.setAlert 6 true else t
  let temp := t.free
  let t := if die = 0 then t else temp.2.modDie (die - 1) (fun d => { d with stackTemp := temp.1.setWidth 12 })
  let trip := hot115 && old.over115
  let cool := (upto 5).all (fun d => decide ((t.mon d).tj.toInt < tj100))
  outcome (Wf.die5 die)
    { t with pins := { t.pins with thermTrip := if trip then true else if cool then false else t.pins.thermTrip } }

end Sys2Proof.Machine
end

