-- ==== Sys2Proof/Machine/Ptp.lean ====
section
/-! DEFINITION. The time-base program (R494): a slave-only ordinary clock on the MAC that TB_CTRL names. Message layouts,
addresses and the comparison of masters are those of IEEE 1588-2019, which R494 names (log 60). -/

namespace Sys2Proof.Machine

/-! ## TB_CTRL -/

def Clock.ptpMac (c : Clock) : Nat := field c.tbCtrl 0 7
def Clock.ptpEn (c : Clock) : Bool := c.tbCtrl.getLsbD 7
def Clock.ptpDomain (c : Clock) : Nat := field c.tbCtrl 8 8
def Clock.ptpTransport (c : Clock) : Nat := field c.tbCtrl 16 2

/-! ## Messages -/

def ptpType (o : Octets) : Nat := beAt o 0 1 % 16
def ptpSeqId (o : Octets) : Nat := beAt o 30 2
/-- sourcePortIdentity. -/
def ptpSource (o : Octets) : Octets := slice o 20 10

/-- A time of 6 octets of seconds and 4 of nanoseconds, in ns. -/
def ptpTime (o : Octets) (off : Nat) : Int := (beAt o off 6 * 1000000000 + beAt o (off + 6) 4 : Nat)

/-- correctionField in ns: signed, with 16 fraction bits. -/
def ptpCorrection (o : Octets) : Int := (BitVec.ofNat 64 (beAt o 8 8)).toInt / 65536

/-- The port identity of the package: its unique ID and port 1. -/
def ptpOwnPort : Octets := beOctets 8 Config.uid.toNat ++ beOctets 2 1

/-- The vector that the best master clock algorithm compares: grandmaster priority 1, quality, priority 2 and identity, steps
removed, port identity. The lower one is the better. -/
def announceVector (o : Octets) : Octets := slice o 47 1 ++ slice o 48 4 ++ slice o 52 1 ++ slice o 53 8 ++ slice o 61 2 ++ ptpSource o

/-- The port of the master in use. -/
def Clock.masterPort (c : Clock) : Option Octets := c.ptpMaster.map (fun v => v.drop 16)

/-- A Delay_Req (R494). -/
def delayReqMessage (domain seq : Nat) : Octets :=
  [0x01#8, 0x02#8] ++ beOctets 2 44 ++ [BitVec.ofNat 8 domain, 0#8] ++ zeros 2 ++ zeros 8 ++ zeros 4 ++ ptpOwnPort ++
  beOctets 2 seq ++ [0x01#8, 0x7F#8] ++ zeros 10

/-- Transmit queue of PTP messages (log 60). -/
def ptpTxQueue : Nat := 7

/-- The frame of a PTP event message over the transport, from the lowest valid unicast entry that suits it. -/
def State.ptpFrame (s : State) (m : Nat) (msg : Octets) : Option Octets :=
  let entries := ((upto 8).map (filterAt (s.mac m).live)).filter filterValid
  match s.clock.ptpTransport with
  | 0 => (entries.find? filterV4En).map (fun e =>
      udpFrame 0x01005E000181 (filterEth e) none 0 64 (.v4 (filterV4 e)) (.v4 0xE0000181#32) 319 319 msg)
  | 1 => (entries.find? filterV6En).map (fun e =>
      udpFrame 0x333300000181 (filterEth e) none 0 64 (.v6 (filterV6 e)) (.v6 (BitVec.ofNat 128 (0xFF0E * 2 ^ 112 + 0x181))) 319 319 msg)
  | _ => entries.head?.map (fun e => ethPad (ethHeader 0x011B19000000 (filterEth e) none 0x88F7 ++ msg))

/-- A Delay_Req with a timestamp request joins its queue (R394). -/
def State.sendDelayReq (s : State) : State :=
  let c := s.clock
  let m := c.ptpMac
  let seq := (c.ptpSeq + 1) % 65536
  match s.ptpFrame m (delayReqMessage c.ptpDomain seq) with
  | some o =>
    State.enqueue { s with clock := { c with ptpSeq := seq, delayReq := some (seq, none) } } m ptpTxQueue { octets := o, stamp := true }
  | none => s

/-! ## The offset (R494) -/

/-- A TB_ADJ that a slew takes: the control law is not in spec/, so the value is free within the bound of R493 (log 3). -/
def slewOf (v : BitVec 64) : W32 := BitVec.ofInt 32 ((v.toNat % 42949673 : Nat) - tbAdjMax)

/-- An offset of the time base from the master in ns: below 1 ms it is slewed, else stepped; eight intervals in a row below
1 µs set LOCKED. -/
def State.correct (s : State) (offset : Int) : State :=
  let c := s.clock
  let good := if offset.natAbs < 1000 then c.goodSyncs + 1 else 0
  let c : Clock := { c with goodSyncs := good, locked := c.locked || decide (8 ≤ good) }
  if offset.natAbs < 1000000 then
    let q := s.free
    { q.2 with clock := { c with tbAdj := slewOf q.1 } }
  else { s with clock := { c with tb := c.tb - BitVec.ofInt 96 (offset * 4294967296) } }

/-- A Sync interval measured: origin time t1 and receive time t2. -/
def State.syncMeasured (s : State) (t1 t2 : Int) : State :=
  let t : State := { s with clock := { s.clock with syncPend := none, syncPair := some (t1.toNat, t2.toNat) } }
  (t.sendDelayReq).correct (t2 - t1 - s.clock.meanDelay)

/-- Timestamps are popped from the MAC's queue until that of Delay_Req `seq` is found (R395). -/
def popDelayReq (seq : Nat) : Nat → Mac → Option Nat × Mac
  | 0, x => (none, x)
  | n + 1, x =>
    match x.tsq with
    | [] => (none, x)
    | e :: _ =>
      let y := x.popTsq
      if bitsOf e.toNat 64 16 = seq ∧ bitsOf e.toNat 80 4 = 1 then (some (bitsOf e.toNat 0 64), y) else popDelayReq seq n y

/-- A Delay_Resp to our Delay_Req: the mean path delay of the four times (R494). -/
def State.delayResp (s : State) (msg : Octets) : State :=
  match s.clock.delayReq, s.clock.syncPair with
  | some (seq, _), some (t1, t2) =>
    let m := s.clock.ptpMac
    let q := popDelayReq seq (s.mac m).tsq.length (s.mac m)
    let t := s.modMac m (fun _ => q.2)
    (match q.1 with
    | some t3 =>
      let t4 := ptpTime msg 34 - ptpCorrection msg
      let delay := ((t2 : Int) - t1 + (t4 - t3)) / 2
      { t with clock := { t.clock with delayReq := none, meanDelay := delay } }
    | none => t)
  | _, _ => s

/-- The transport of a frame: 0 IPv4, 1 IPv6, 2 IEEE 802.3. -/
def transportOf (o : Octets) : Nat :=
  match (parseEth o).etype with
  | 0x0800 => 0
  | 0x86DD => 1
  | _ => 2

/-- One message of the program's MAC, domain and transport. -/
def State.ptpTake (s : State) (msg : Octets) (time : BitVec 64) : State :=
  let c := s.clock
  let ours := decide (c.masterPort = some (ptpSource msg))
  match ptpType msg with
  | 0x0 =>
    if !ours then s
    else if (beAt msg 6 1).testBit 1 then
      { s with clock := { c with syncPend := some (ptpSeqId msg, (Int.toNat ((time.toNat : Int) - ptpCorrection msg))) } }
    else s.syncMeasured (ptpTime msg 34 + ptpCorrection msg) time.toNat
  | 0x8 =>
    (match c.syncPend with
    | some (seq, t2) => if ours && decide (seq = ptpSeqId msg) then s.syncMeasured (ptpTime msg 34 + ptpCorrection msg) t2 else s
    | none => s)
  | 0x9 =>
    let mine := match c.delayReq with
      | some (seq, _) => decide (seq = ptpSeqId msg) && decide (slice msg 44 10 = ptpOwnPort)
      | none => false
    if ours && mine then s.delayResp msg else s
  | 0xB =>
    let v := announceVector msg
    let better := match c.ptpMaster with
      | some old => decide (old.drop 16 = ptpSource msg) || decide (beNat v < beNat old)
      | none => true
    if better then { s with clock := { c with ptpMaster := some v } } else s
  | _ => s

/-- PTP_MESSAGE (R494): the oldest frame of the PTP receive queue; with PTPEN 0, or from another MAC, domain or transport, it is
consumed without effect. -/
def execPtpMessage (s : State) : Out :=
  outcome true (match s.net.ptpQueue with
    | [] => s
    | (m, f) :: rest =>
      let t : State := { s with net := { s.net with ptpQueue := rest } }
      let o := f.octets.take (f.octets.length - 4)
      let msg := ptpPayload o
      if s.clock.ptpEn && decide (m = s.clock.ptpMac) && decide (transportOf o = s.clock.ptpTransport) &&
          decide (beAt msg 1 1 % 16 = 2) && decide (beAt msg 4 1 = s.clock.ptpDomain) then t.ptpTake msg f.time
      else t)

/-- PTP_SYNC_TIMEOUT (R494): 3 s without a usable Sync; TB_ADJ keeps its value. -/
def execPtpSyncTimeout (s : State) : Out :=
  outcome true (whenDo s.clock.ptpEn s
    { s with clock := { s.clock with locked := false, goodSyncs := 0, ptpMaster := none, syncPend := none } })

end Sys2Proof.Machine
end

