-- ==== Sys2Proof/Machine/Tap.lean ====
section
/-! DEFINITION. The test access port (R505, R506). A command is one instruction with one scan of the data register it selects:
`scan` is what is shifted in and updated, `balls` what the boundary cells capture before. -/

namespace Sys2Proof.Machine

/-- Instruction codes of Table 17-12. -/
def tapExtest : BitVec 8 := 0x00#8
def tapSample : BitVec 8 := 0x01#8
def tapIdcode : BitVec 8 := 0x02#8
def tapHighz : BitVec 8 := 0x03#8
def tapClamp : BitVec 8 := 0x04#8
def tapPulse : BitVec 8 := 0x05#8
def tapTrain : BitVec 8 := 0x06#8
def tapBootstat : BitVec 8 := 0x80#8
def tapBypass : BitVec 8 := 0xFF#8

/-- IDCODE (R505): revision, part number 0x8256, manufacturer identity 0x6D5, 1. -/
def idcode : W32 := w32 (Config.rev.toNat * 2 ^ 28 + 0x8256 * 2 ^ 12 + 0x6D5 * 2 + 1)

/-- The port is out of reset: TRST_N is high. -/
def State.tapOn (s : State) : Bool := s.pins.trst

/-- EXTEST, EXTEST_PULSE, EXTEST_TRAIN, HIGHZ and CLAMP take the balls only in BOOT or RESET (R506). -/
def State.tapMayDrive (s : State) : Bool := s.tapOn && (s.inReset || decide (s.mode.mode = Mode.boot))

/-- How an output ball is driven: floated by HIGHZ, driven from its boundary cell by EXTEST and CLAMP (R505); while PORST_N is low,
chip enables, write protect and the NOR's chip select high and the other outputs at high impedance (R542); the quad-SPI balls at high
impedance in a BOOT that found no valid image (R503); else by its block. -/
def State.outBall (s : State) (b : OutBall) : Drive :=
  if s.tap.floating then .highZ
  else if s.tap.driving then .boundary
  else if s.pins.porst then (match b with
    | .qspiCs | .qspiOther => if s.mode.bootFailed then .highZ else .functional
    | .flashCe _ _ | .flashWp _ | .flashOther _ => .functional)
  else match b with
    | .flashCe _ _ | .flashWp _ | .qspiCs => .high
    | .flashOther _ | .qspiOther => .highZ

/-- An instruction becomes the current one; balls are driven, floated or pulsed as it says. -/
def State.tapSelect (s : State) (ir : BitVec 8) (driving floating pulsing : Bool) (f : Tap → Tap) : State :=
  { s with tap := f { s.tap with ir := ir, driving := driving, floating := floating, pulsing := pulsing } }

/-- What a scan of the boundary register captured stands in `captured`; the cells are updated with `scan`. -/
def Tap.scanBoundary (t : Tap) (scan balls : List Bool) : Tap := { t with captured := balls, boundary := scan }

/-- EXTEST (R505): the update drives the outputs, the capture samples the inputs. -/
def execExtest (scan balls : List Bool) (s : State) : Out :=
  outcome true (whenDo s.tapMayDrive s (s.tapSelect tapExtest true false false (fun t => t.scanBoundary scan balls)))

/-- SAMPLE/PRELOAD (R505): the functional logic keeps the balls. -/
def execSamplePreload (scan balls : List Bool) (s : State) : Out :=
  outcome true (whenDo s.tapOn s (s.tapSelect tapSample false false false (fun t => t.scanBoundary scan balls)))

/-- IDCODE (R505). -/
def execIdcode (s : State) : Out :=
  outcome true (whenDo s.tapOn s (s.tapSelect tapIdcode false false false (fun t => { t with data := idcode })))

/-- HIGHZ (R505): every boundary output floats, bypass is selected. -/
def execHighz (s : State) : Out :=
  outcome true (whenDo s.tapMayDrive s (s.tapSelect tapHighz false true false (fun t => { t with bypass := false })))

/-- CLAMP (R505): outputs hold what the boundary register holds, bypass is selected. With `scan` the register is preloaded
first, as SAMPLE/PRELOAD leaves it. -/
def execClamp (scan : List Bool) (s : State) : Out :=
  outcome true (whenDo s.tapMayDrive s (s.tapSelect tapClamp true false false (fun t => { t with boundary := scan, bypass := false })))

/-- EXTEST_PULSE (R505). -/
def execExtestPulse (scan balls : List Bool) (s : State) : Out :=
  outcome true (whenDo s.tapMayDrive s (s.tapSelect tapPulse true false true (fun t => t.scanBoundary scan balls)))

/-- EXTEST_TRAIN (R505). -/
def execExtestTrain (scan balls : List Bool) (s : State) : Out :=
  outcome true (whenDo s.tapMayDrive s (s.tapSelect tapTrain true false true (fun t => t.scanBoundary scan balls)))

/-- BOOTSTAT (R505): captures BOOT_STAT. -/
def execBootstat (s : State) : Out :=
  outcome true (whenDo s.tapOn s (s.tapSelect tapBootstat false false false (fun t => { t with data := s.mode.bootStat })))

/-- BYPASS (R505): the one-bit register holds the last bit shifted in. -/
def execBypass (tdi : Bool) (s : State) : Out :=
  outcome true (whenDo s.tapOn s (s.tapSelect tapBypass false false false (fun t => { t with bypass := tdi })))

/-- TRST_N (R495, R505): low resets the test access port only; IDCODE is selected at Test-Logic-Reset. -/
def execTrstN (level : Bool) (s : State) : Out :=
  let t : State := { s with pins := { s.pins with trst := level } }
  outcome true (if level then t else { t with tap := {} })

end Sys2Proof.Machine
end

