-- ==== Sys2Proof/Machine/Dispatch.lean ====
section
/-! DEFINITION. One arm per command: a direct call of its meaning. -/

namespace Sys2Proof.Machine

def exec (i : Instr) (s : State) : Host.Outcome State Fault Refusal :=
  match i with
  | .powerOn => Sys2Proof.Machine.execPowerOn s
  | .porstN level => Sys2Proof.Machine.execPorstN level s
  | .wrstN level => Sys2Proof.Machine.execWrstN level s
  | .pfailN level => Sys2Proof.Machine.execPfailN level s
  | .supplyTrip die inRange => Sys2Proof.Machine.execSupplyTrip die inRange s
  | .dumpDone die => Sys2Proof.Machine.execDumpDone die s
  | .holdupRestart => Sys2Proof.Machine.execHoldupRestart s
  | .resetDumpDone die => Sys2Proof.Machine.execResetDumpDone die s
  | .resetRelease => Sys2Proof.Machine.execResetRelease s
  | .bootEnd nor => Sys2Proof.Machine.execBootEnd nor s
  | .leaseRequest die => Sys2Proof.Machine.execLeaseRequest die s
  | .electGrant => Sys2Proof.Machine.execElectGrant s
  | .electTimeout => Sys2Proof.Machine.execElectTimeout s
  | .leaseRenewal => Sys2Proof.Machine.execLeaseRenewal s
  | .leaseTermEnd => Sys2Proof.Machine.execLeaseTermEnd s
  | .leaseGapEnd => Sys2Proof.Machine.execLeaseGapEnd s
  | .nomasterTimeout => Sys2Proof.Machine.execNomasterTimeout s
  | .laneTrainingDone mac trained => Sys2Proof.Machine.execLaneTrainingDone mac trained s
  | .channelTrainingDone die ch ids result desk => Sys2Proof.Machine.execChannelTrainingDone die ch ids result desk s
  | .mountDieReady die find => Sys2Proof.Machine.execMountDieReady die find s
  | .nogenTimeout => Sys2Proof.Machine.execNogenTimeout s
  | .formatComplete => Sys2Proof.Machine.execFormatComplete s
  | .refclkLoss => Sys2Proof.Machine.execRefclkLoss s
  | .refclkRelock => Sys2Proof.Machine.execRefclkRelock s
  | .tempSample die tj => Sys2Proof.Machine.execTempSample die tj s
  | .frameReceive mac octets phyErr => Sys2Proof.Machine.execFrameReceive mac octets phyErr s
  | .pauseRefresh mac prio => Sys2Proof.Machine.execPauseRefresh mac prio s
  | .pauseExpiry mac prio => Sys2Proof.Machine.execPauseExpiry mac prio s
  | .ringTake => Sys2Proof.Machine.execRingTake s
  | .txFrameStart mac => Sys2Proof.Machine.execTxFrameStart mac s
  | .linkUp mac => Sys2Proof.Machine.execLinkUp mac s
  | .linkDown mac => Sys2Proof.Machine.execLinkDown mac s
  | .laneFault lane cause => Sys2Proof.Machine.execLaneFault lane cause s
  | .init => Sys2Proof.Machine.execInit s
  | .pad => Sys2Proof.Machine.execPad s
  | .req => Sys2Proof.Machine.execReq s
  | .ack => Sys2Proof.Machine.execAck s
  | .window => Sys2Proof.Machine.execWindow s
  | .ping => Sys2Proof.Machine.execPing s
  | .close => Sys2Proof.Machine.execClose s
  | .reset => Sys2Proof.Machine.execReset s
  | .ackTimer conn => Sys2Proof.Machine.execAckTimer conn s
  | .retxTimeout conn => Sys2Proof.Machine.execRetxTimeout conn s
  | .idleTimeout conn => Sys2Proof.Machine.execIdleTimeout conn s
  | .openingTimeout conn => Sys2Proof.Machine.execOpeningTimeout conn s
  | .quietEnd conn => Sys2Proof.Machine.execQuietEnd conn s
  | .limitRaise => Sys2Proof.Machine.execLimitRaise s
  | .responseSend conn tag => Sys2Proof.Machine.execResponseSend conn tag s
  | .gateLeave => Sys2Proof.Machine.execGateLeave s
  | .reqdataGrant die => Sys2Proof.Machine.execReqdataGrant die s
  | .saggarCopyDone commit => Sys2Proof.Machine.execSaggarCopyDone commit s
  | .nohandlerCommand commit => Sys2Proof.Machine.execNohandlerCommand commit s
  | .get commit ctx => Sys2Proof.Machine.execGet commit ctx s
  | .getsel commit ctx => Sys2Proof.Machine.execGetsel commit ctx s
  | .put commit ctx => Sys2Proof.Machine.execPut commit ctx s
  | .delete commit ctx => Sys2Proof.Machine.execDelete commit ctx s
  | .sdiscard commit ctx => Sys2Proof.Machine.execSdiscard commit ctx s
  | .mpbegin commit ctx => Sys2Proof.Machine.execMpbegin commit ctx s
  | .mppart commit ctx => Sys2Proof.Machine.execMppart commit ctx s
  | .mpcommit commit ctx => Sys2Proof.Machine.execMpcommit commit ctx s
  | .mpcancel commit ctx => Sys2Proof.Machine.execMpcancel commit ctx s
  | .scan commit ctx => Sys2Proof.Machine.execScan commit ctx s
  | .flush commit ctx => Sys2Proof.Machine.execFlush commit ctx s
  | .fence commit ctx => Sys2Proof.Machine.execFence commit ctx s
  | .abort => Sys2Proof.Machine.execAbort s
  | .stat commit ctx => Sys2Proof.Machine.execStat commit ctx s
  | .selput commit ctx => Sys2Proof.Machine.execSelput commit ctx s
  | .seldel commit ctx => Sys2Proof.Machine.execSeldel commit ctx s
  | .operatorCommand commit ctx => Sys2Proof.Machine.execOperatorCommand commit ctx s
  | .add x => Sys2Proof.Machine.execAdd x s
  | .sub x => Sys2Proof.Machine.execSub x s
  | .and x => Sys2Proof.Machine.execAnd x s
  | .or x => Sys2Proof.Machine.execOr x s
  | .xor x => Sys2Proof.Machine.execXor x s
  | .shl x => Sys2Proof.Machine.execShl x s
  | .shr x => Sys2Proof.Machine.execShr x s
  | .sar x => Sys2Proof.Machine.execSar x s
  | .mul x => Sys2Proof.Machine.execMul x s
  | .divu x => Sys2Proof.Machine.execDivu x s
  | .remu x => Sys2Proof.Machine.execRemu x s
  | .ext x => Sys2Proof.Machine.execExt x s
  | .dep x => Sys2Proof.Machine.execDep x s
  | .addi x => Sys2Proof.Machine.execAddi x s
  | .andi x => Sys2Proof.Machine.execAndi x s
  | .ori x => Sys2Proof.Machine.execOri x s
  | .xori x => Sys2Proof.Machine.execXori x s
  | .shli x => Sys2Proof.Machine.execShli x s
  | .shri x => Sys2Proof.Machine.execShri x s
  | .sari x => Sys2Proof.Machine.execSari x s
  | .li x => Sys2Proof.Machine.execLi x s
  | .lsh x => Sys2Proof.Machine.execLsh x s
  | .set x => Sys2Proof.Machine.execSet x s
  | .beq x => Sys2Proof.Machine.execBeq x s
  | .bne x => Sys2Proof.Machine.execBne x s
  | .bltu x => Sys2Proof.Machine.execBltu x s
  | .bgeu x => Sys2Proof.Machine.execBgeu x s
  | .blt x => Sys2Proof.Machine.execBlt x s
  | .bge x => Sys2Proof.Machine.execBge x s
  | .bz x => Sys2Proof.Machine.execBz x s
  | .bnz x => Sys2Proof.Machine.execBnz x s
  | .jmp x => Sys2Proof.Machine.execJmp x s
  | .jr x => Sys2Proof.Machine.execJr x s
  | .call x => Sys2Proof.Machine.execCall x s
  | .ld8 x => Sys2Proof.Machine.execLd8 x s
  | .ld16 x => Sys2Proof.Machine.execLd16 x s
  | .ld32 x => Sys2Proof.Machine.execLd32 x s
  | .ld64 x => Sys2Proof.Machine.execLd64 x s
  | .st8 x => Sys2Proof.Machine.execSt8 x s
  | .st16 x => Sys2Proof.Machine.execSt16 x s
  | .st32 x => Sys2Proof.Machine.execSt32 x s
  | .st64 x => Sys2Proof.Machine.execSt64 x s
  | .wl8 x => Sys2Proof.Machine.execWl8 x s
  | .wl16 x => Sys2Proof.Machine.execWl16 x s
  | .wl32 x => Sys2Proof.Machine.execWl32 x s
  | .wl64 x => Sys2Proof.Machine.execWl64 x s
  | .rs8 x => Sys2Proof.Machine.execRs8 x s
  | .rs16 x => Sys2Proof.Machine.execRs16 x s
  | .rs32 x => Sys2Proof.Machine.execRs32 x s
  | .rs64 x => Sys2Proof.Machine.execRs64 x s
  | .keycmpOrder x => Sys2Proof.Machine.execKeycmpOrder x s
  | .keycmpPrefix x => Sys2Proof.Machine.execKeycmpPrefix x s
  | .keycpy x => Sys2Proof.Machine.execKeycpy x s
  | .crc x => Sys2Proof.Machine.execCrc x s
  | .hkey x => Sys2Proof.Machine.execHkey x s
  | .dlookHash x => Sys2Proof.Machine.execDlookHash x s
  | .dlookSucc x => Sys2Proof.Machine.execDlookSucc x s
  | .dlookPend x => Sys2Proof.Machine.execDlookPend x s
  | .dins x => Sys2Proof.Machine.execDins x s
  | .dupd x => Sys2Proof.Machine.execDupd x s
  | .ddel x => Sys2Proof.Machine.execDdel x s
  | .sel x => Sys2Proof.Machine.execSel x s
  | .selnext x => Sys2Proof.Machine.execSelnext x s
  | .sadd x => Sys2Proof.Machine.execSadd x s
  | .sdel x => Sys2Proof.Machine.execSdel x s
  | .mreadValue x => Sys2Proof.Machine.execMreadValue x s
  | .mreadKeyrec x => Sys2Proof.Machine.execMreadKeyrec x s
  | .mreadFill x => Sys2Proof.Machine.execMreadFill x s
  | .mwriteStaged x => Sys2Proof.Machine.execMwriteStaged x s
  | .mwritePart x => Sys2Proof.Machine.execMwritePart x s
  | .mdisc x => Sys2Proof.Machine.execMdisc x s
  | .msdisc x => Sys2Proof.Machine.execMsdisc x s
  | .emit x => Sys2Proof.Machine.execEmit x s
  | .emitd x => Sys2Proof.Machine.execEmitd x s
  | .fenceConn x => Sys2Proof.Machine.execFenceConn x s
  | .fencePkg x => Sys2Proof.Machine.execFencePkg x s
  | .fenceFlushns x => Sys2Proof.Machine.execFenceFlushns x s
  | .fenceFlushall x => Sys2Proof.Machine.execFenceFlushall x s
  | .lock x => Sys2Proof.Machine.execLock x s
  | .unlk x => Sys2Proof.Machine.execUnlk x s
  | .wait x => Sys2Proof.Machine.execWait x s
  | .waitSaggar x => Sys2Proof.Machine.execWaitSaggar x s
  | .done x => Sys2Proof.Machine.execDone x s
  | .fail x => Sys2Proof.Machine.execFail x s
  | .yield x => Sys2Proof.Machine.execYield x s
  | .log x => Sys2Proof.Machine.execLog x s
  | .mfs x => Sys2Proof.Machine.execMfs x s
  | .mts x => Sys2Proof.Machine.execMts x s
  | .rdtime x => Sys2Proof.Machine.execRdtime x s
  | .rdcyc x => Sys2Proof.Machine.execRdcyc x s
  | .rdreg x => Sys2Proof.Machine.execRdreg x s
  | .wrreg x => Sys2Proof.Machine.execWrreg x s
  | .directoryReply x => Sys2Proof.Machine.execDirectoryReply x s
  | .succAnswer x => Sys2Proof.Machine.execSuccAnswer x s
  | .ledgerRoomReady x => Sys2Proof.Machine.execLedgerRoomReady x s
  | .allocReserve x => Sys2Proof.Machine.execAllocReserve x s
  | .mediaResult x slot => Sys2Proof.Machine.execMediaResult x slot s
  | .lockGrant place => Sys2Proof.Machine.execLockGrant place s
  | .fenceRelease x => Sys2Proof.Machine.execFenceRelease x s
  | .largeUnitGrant die => Sys2Proof.Machine.execLargeUnitGrant die s
  | .icacheFillDone x => Sys2Proof.Machine.execIcacheFillDone x s
  | .spillAccessDone x => Sys2Proof.Machine.execSpillAccessDone x s
  | .windowLoadDone x => Sys2Proof.Machine.execWindowLoadDone x s
  | .regAccessDone x => Sys2Proof.Machine.execRegAccessDone x s
  | .waitlimit x => Sys2Proof.Machine.execWaitlimit x s
  | .selSearchResult x upsets => Sys2Proof.Machine.execSelSearchResult x upsets s
  | .allocApply => Sys2Proof.Machine.execAllocApply s
  | .ledgerApply die => Sys2Proof.Machine.execLedgerApply die s
  | .selScrub bank upsets copyUpsets => Sys2Proof.Machine.execSelScrub bank upsets copyUpsets s
  | .engineParityError engine => Sys2Proof.Machine.execEngineParityError engine s
  | .clusterEccError cluster kind => Sys2Proof.Machine.execClusterEccError cluster kind s
  | .mgmtEngineError die => Sys2Proof.Machine.execMgmtEngineError die s
  | .hbmUe die pch part => Sys2Proof.Machine.execHbmUe die pch part s
  | .stackLoss die cause => Sys2Proof.Machine.execStackLoss die cause s
  | .dlinkCrcError link => Sys2Proof.Machine.execDlinkCrcError link s
  | .portDieUe buffer => Sys2Proof.Machine.execPortDieUe buffer s
  | .recorderUe cause index => Sys2Proof.Machine.execRecorderUe cause index s
  | .recorderScrub corrected failing => Sys2Proof.Machine.execRecorderScrub corrected failing s
  | .eventInput => Sys2Proof.Machine.execEventInput s
  | .eventWrite => Sys2Proof.Machine.execEventWrite s
  | .lunTimeout die flash => Sys2Proof.Machine.execLunTimeout die flash s
  | .flashReadDone die pca attempts stripe => Sys2Proof.Machine.execFlashReadDone die pca attempts stripe s
  | .chunkVerified die pca result => Sys2Proof.Machine.execChunkVerified die pca result s
  | .eraseDone die block ok => Sys2Proof.Machine.execEraseDone die block ok s
  | .dieStateTick die => Sys2Proof.Machine.execDieStateTick die s
  | .recentre die ch target result desk => Sys2Proof.Machine.execRecentre die ch target result desk s
  | .valueDrain die ref toSlc => Sys2Proof.Machine.execValueDrain die ref toSlc s
  | .journalDrain die => Sys2Proof.Machine.execJournalDrain die s
  | .epochBegin die => Sys2Proof.Machine.execEpochBegin die s
  | .epochComplete die => Sys2Proof.Machine.execEpochComplete die s
  | .reclaimPass die region => Sys2Proof.Machine.execReclaimPass die region s
  | .fold die region => Sys2Proof.Machine.execFold die region s
  | .staticLevelling die region => Sys2Proof.Machine.execStaticLevelling die region s
  | .patrolRead die super reads => Sys2Proof.Machine.execPatrolRead die super reads s
  | .refresh die region => Sys2Proof.Machine.execRefresh die region s
  | .rebuild die region => Sys2Proof.Machine.execRebuild die region s
  | .mapCompaction die => Sys2Proof.Machine.execMapCompaction die s
  | .serialSweep die => Sys2Proof.Machine.execSerialSweep die s
  | .arbRequest arb req unit => Sys2Proof.Machine.execArbRequest arb req unit s
  | .arbDecision arb => Sys2Proof.Machine.execArbDecision arb s
  | .arbWindowStart arb => Sys2Proof.Machine.execArbWindowStart arb s
  | .fnStopComplete fn => Sys2Proof.Machine.execFnStopComplete fn s
  | .fnRestartComplete fn => Sys2Proof.Machine.execFnRestartComplete fn s
  | .mpTrigRun die slot => Sys2Proof.Machine.execMpTrigRun die slot s
  | .resetDelayEnd => Sys2Proof.Machine.execResetDelayEnd s
  | .rread => Sys2Proof.Machine.execRread s
  | .rwrite => Sys2Proof.Machine.execRwrite s
  | .tread => Sys2Proof.Machine.execTread s
  | .twrite => Sys2Proof.Machine.execTwrite s
  | .hbind => Sys2Proof.Machine.execHbind s
  | .hempty => Sys2Proof.Machine.execHempty s
  | .hread => Sys2Proof.Machine.execHread s
  | .pbind => Sys2Proof.Machine.execPbind s
  | .prun => Sys2Proof.Machine.execPrun s
  | .modesetReset => Sys2Proof.Machine.execModesetReset s
  | .modesetService => Sys2Proof.Machine.execModesetService s
  | .modesetDrain => Sys2Proof.Machine.execModesetDrain s
  | .modesetFormat => Sys2Proof.Machine.execModesetFormat s
  | .otpset => Sys2Proof.Machine.execOtpset s
  | .mastermove => Sys2Proof.Machine.execMastermove s
  | .kserase => Sys2Proof.Machine.execKserase s
  | .fabform => Sys2Proof.Machine.execFabform s
  | .fabremove => Sys2Proof.Machine.execFabremove s
  | .fnCtrlEnable fn value => Sys2Proof.Machine.execFnCtrlEnable fn value s
  | .freeze value => Sys2Proof.Machine.execFreeze value s
  | .clear value => Sys2Proof.Machine.execClear value s
  | .tsqPop mac value => Sys2Proof.Machine.execTsqPop mac value s
  | .lockForce die value => Sys2Proof.Machine.execLockForce die value s
  | .shut arb value => Sys2Proof.Machine.execShut arb value s
  | .tbStepHi value => Sys2Proof.Machine.execTbStepHi value s
  | .masterpref value => Sys2Proof.Machine.execMasterpref value s
  | .importdis value => Sys2Proof.Machine.execImportdis value s
  | .rcCounterRead place off => Sys2Proof.Machine.execRcCounterRead place off s
  | .registerWrite place off value => Sys2Proof.Machine.execRegisterWrite place off value s
  | .helloTimer mac => Sys2Proof.Machine.execHelloTimer mac s
  | .neighborDown uid mac => Sys2Proof.Machine.execNeighborDown uid mac s
  | .lsaTimer => Sys2Proof.Machine.execLsaTimer s
  | .proposeStart => Sys2Proof.Machine.execProposeStart s
  | .proposeResend => Sys2Proof.Machine.execProposeResend s
  | .hello => Sys2Proof.Machine.execHello s
  | .lsa => Sys2Proof.Machine.execLsa s
  | .propose => Sys2Proof.Machine.execPropose s
  | .vote => Sys2Proof.Machine.execVote s
  | .commit => Sys2Proof.Machine.execCommit s
  | .stemResolve bucket => Sys2Proof.Machine.execStemResolve bucket s
  | .fwd => Sys2Proof.Machine.execFwd s
  | .fwdrsp => Sys2Proof.Machine.execFwdrsp s
  | .repl => Sys2Proof.Machine.execRepl s
  | .replack => Sys2Proof.Machine.execReplack s
  | .applyMark uid => Sys2Proof.Machine.execApplyMark uid s
  | .copy => Sys2Proof.Machine.execCopy s
  | .sync => Sys2Proof.Machine.execSync s
  | .rfpAck => Sys2Proof.Machine.execRfpAck s
  | .rfpRetxTimeout uid => Sys2Proof.Machine.execRfpRetxTimeout uid s
  | .extest scan balls => Sys2Proof.Machine.execExtest scan balls s
  | .samplePreload scan balls => Sys2Proof.Machine.execSamplePreload scan balls s
  | .idcode => Sys2Proof.Machine.execIdcode s
  | .highz => Sys2Proof.Machine.execHighz s
  | .clamp scan => Sys2Proof.Machine.execClamp scan s
  | .extestPulse scan balls => Sys2Proof.Machine.execExtestPulse scan balls s
  | .extestTrain scan balls => Sys2Proof.Machine.execExtestTrain scan balls s
  | .bootstat => Sys2Proof.Machine.execBootstat s
  | .bypass tdi => Sys2Proof.Machine.execBypass tdi s
  | .trstN level => Sys2Proof.Machine.execTrstN level s
  | .abortReply commit ctx => Sys2Proof.Machine.execAbortReply commit ctx s
  | .nocode => Sys2Proof.Machine.execNocode s
  | .linkupTimeout => Sys2Proof.Machine.execLinkupTimeout s
  | .selRestored bank => Sys2Proof.Machine.execSelRestored bank s
  | .cascadeConnectionLost die => Sys2Proof.Machine.execCascadeConnectionLost die s
  | .dlinkRetrainEnd link trained => Sys2Proof.Machine.execDlinkRetrainEnd link trained s
  | .arbGrantEnd arb => Sys2Proof.Machine.execArbGrantEnd arb s
  | .fabricRecordWritten => Sys2Proof.Machine.execFabricRecordWritten s
  | .slcProgramsEnd => Sys2Proof.Machine.execSlcProgramsEnd s
  | .sramTestDone passed => Sys2Proof.Machine.execSramTestDone passed s
  | .sdiscardPurge die => Sys2Proof.Machine.execSdiscardPurge die s
  | .ptpMessage => Sys2Proof.Machine.execPtpMessage s
  | .ptpSyncTimeout => Sys2Proof.Machine.execPtpSyncTimeout s
  | .lowRegisterRead place off => Sys2Proof.Machine.execLowRegisterRead place off s

end Sys2Proof.Machine
end

