-- ==== Sys2Proof/Machine/Tick.lean ====
section
/-! DEFINITION. What one CLKT cycle does by itself (log 2): the cycle count of the windows (R469), the time base (R492)
and the availability counters (R475). -/

namespace Sys2Proof.Machine

/-- What a time-base copy adds at one CLKT edge, in units of 2^-32 ns: 10 ns plus TB_ADJ (R492). -/
def tbIncrement (adj : W32) : BitVec 96 := BitVec.ofInt 96 (10 * 2 ^ 32 + adj.toInt)

/-- One CLKT cycle. The cycle count runs outside RESET, the time base while PORST_N is high; the availability counters
count from power-up (R475). -/
def tick (s : State) : State :=
  let c := s.clock
  let up := s.available
  { s with clock := { c with
      cycles := if s.inReset then c.cycles else c.cycles + 1
      tb := if s.pins.porst then c.tb + tbIncrement c.tbAdj else c.tb
      upCycles := if up then c.upCycles + 1 else c.upCycles
      downCycles := if up then c.downCycles else c.downCycles + 1 } }

end Sys2Proof.Machine
end

