-- ==== Sys2Proof/Safety.lean ====
section
/-! DEFINITION. What a safe run is, in the terms statements use: no step stops. -/

namespace Sys2Proof

/-- `n` steps from `s` all answer a next state. -/
def Safety.runs (n : Nat) (s : Machine.State) : Prop := ∃ t, core.run n s = .next t

/-- The next step of `s` answers a next state. -/
def Safety.stepOk (s : Machine.State) : Prop := ∃ t, Machine.step s = .next t

end Sys2Proof
end

