-- ==== Sys2Proof/Certificates/Slice0/Obligations.lean ====
section
/-! DEFINITION. The statements of this row about the EZ-8256: one step, well-formedness, each family of commands with what
it changes and what it leaves alone, the OTP settings' invariant over every step, and the Nirm encodings. -/

namespace Sys2Proof.Stmt
open Sys2Proof.Machine

/-- Command `i` completes on `s`, and the state it answers meets `P`. -/
abbrev Runs (i : Instr) (s : State) (P : State → Prop) : Prop := ∃ t, exec i s = .next t ∧ P t

/-- Command `i` completes on `s` and leaves all of it as it is. -/
abbrev Idle (i : Instr) (s : State) : Prop := exec i s = .next s

/-- What a reset leaves of a store die: its flash, its checkpoints, its keys. -/
def SameMedia (a b : Die) : Prop :=
  a.slots = b.slots ∧ a.blocks = b.blocks ∧ a.supers = b.supers ∧ a.epochs = b.epochs ∧ a.journal = b.journal ∧
  a.images = b.images ∧ a.keys = b.keys ∧ a.retired = b.retired

/-- Outside RESET and HOLDUP. -/
def Awake (s : State) : Prop := s.mode.mode ≠ .reset ∧ s.mode.mode ≠ .holdup

/-- What every package reset but POWER_ON keeps (R495): the records with SEQ and the pending counts, the failsafe set, the
availability counters, PKGFAULT. Events in the FIFO are added to the pending loss count (R547). -/
def StickyKept (s t : State) : Prop :=
  t.recorder.store = s.recorder.store ∧ t.recorder.seq = s.recorder.seq ∧
  t.recorder.pendLost = s.recorder.pendLost + s.recorder.fifo.length ∧ t.recorder.pendFreeze = s.recorder.pendFreeze ∧
  t.recorder.fsCause = s.recorder.fsCause ∧ t.recorder.fsIndex = s.recorder.fsIndex ∧
  t.recorder.fsCount = s.recorder.fsCount ∧ t.recorder.fsTime = s.recorder.fsTime ∧ t.recorder.fsLost = s.recorder.fsLost ∧
  t.clock.upCycles = s.clock.upCycles ∧ t.clock.downCycles = s.clock.downCycles ∧
  t.mode.alertCause.getLsbD 5 = s.mode.alertCause.getLsbD 5

/-- Some store die's home part is live. -/
def SomeLive (s : State) : Prop := ∃ d, d < 4 ∧ (s.die d).live = true

/-- Some store die still owes its dump. -/
def DumpOwed (s : State) : Prop := ∃ d, d < 4 ∧ (s.die d).live = true ∧ (s.die d).dumped = false

/-- The one event raised between `s` and `t`, with its code, SOURCE, TIME and P0 to P3. -/
def Raised (s t : State) (code source p0 p1 p2 p3 : Nat) : Prop :=
  t.recorder.input = s.recorder.input ++
    [{ code := code, source := source, time := s.now, p0 := w32 p0, p1 := w32 p1, p2 := w32 p2, p3 := w32 p3 }]

end Sys2Proof.Stmt

open Sys2Proof Sys2Proof.Machine Sys2Proof.Stmt

/-! ## The queue, the step, the whole machine -/

/-- A step takes the front command. With command c at the front of the queue, a step is exec of c on the state with the
queue's rest. -/
def Obligations.StepRunsFront : Prop :=
  ∀ (c : Instr) (rest : List Instr) (s : State), s.pending = c :: rest → step s = exec c { s with pending := rest }

/-- An idle step is one CLKT cycle. With an empty queue a step answers a next state in which the time base has gained 10 ns
plus TB_ADJ × 2^-32 ns while PORST_N is high, and nothing outside the clock unit has changed. That an idle step is one CLKT
cycle is the model's choice (log 2). -/
def Obligations.IdleStepTicks : Prop :=
  ∀ s : State, s.pending = [] → ∃ t, step s = .next t ∧ t = { s with clock := t.clock } ∧
    (s.pins.porst = true → t.clock.tb = s.clock.tb + 10 * 2 ^ 32 + s.clock.tbAdj.signExtend 96) ∧
    (s.pins.porst = false → t.clock.tb = s.clock.tb) ∧
    t.clock.cycles = (if s.mode.mode = .reset then s.clock.cycles else s.clock.cycles + 1) ∧
    t.clock.rootLock = s.clock.rootLock ∧ t.clock.tbAdj = s.clock.tbAdj ∧ t.clock.tbCtrl = s.clock.tbCtrl

/-- Every well-formed command completes. A command whose operands name existing units answers a next state, any other stops
with noUnit, and none is refused. That a command whose conditions do not hold changes nothing is the model's choice (log 1).
The fault noUnit is the model's own (log 97). -/
def Obligations.WellFormedRuns : Prop :=
  ∀ (c : Instr) (s : State), (Wf.instr c = true → ∃ t, exec c s = .next t) ∧
    (Wf.instr c = false → exec c s = .fault .noUnit)

/-- A command leaves the queue alone. No command's effect adds to or takes from the commands that wait. -/
def Obligations.ExecKeepsQueue : Prop := ∀ (c : Instr) (s t : State), exec c s = .next t → t.pending = s.pending

/-- The package at reset. Right after reset the package is in RESET with no degradation cause, WAITLIMIT 1,000, the event
recorder empty with RATE 16, no lease holder and epoch 0, the root PLL not locked, the time base 0, the OTP counts of Table
15-13, an empty queue, and every store die in reset. -/
def Sys2Proof.Stmt.ResetValues : Prop :=
  State.reset.mode.mode = .reset ∧ State.reset.mode.waitLimit = 1000 ∧ State.reset.mode.degr = 0 ∧
  State.reset.recorder.count = 0 ∧ State.reset.recorder.seq = 0 ∧ State.reset.recorder.rate = 16 ∧
  State.reset.lease.holder = 7 ∧ State.reset.lease.state = .none ∧ State.reset.lease.epoch = 0 ∧
  State.reset.clock.rootLock = false ∧ State.reset.clock.tb = 0 ∧
  State.reset.otp.leftFabDom = 8 ∧ State.reset.otp.leftRootMgmt = 16 ∧ State.reset.otp.leftMediaRoot = 16 ∧
  State.reset.otp.leftLaneMap = 4 ∧ State.reset.otp.leftMasterPref = 4 ∧ State.reset.otp.leftImportDis = 1 ∧
  State.reset.pending = [] ∧ ∀ d, (State.reset.die d).inReset = true

/-! ## Resets, HOLDUP, clocks, temperature -/

/-- POWER_ON and PORST_N. Power coming up clears the sticky set; PORST_N low resets at once with the root PLL and time base
and keeps the sticky set; both put every store die in reset, end every connection, command and lock and keep the OTP
settings and every die's media; PORST_N high starts the time base at 0, with ALERT_N again as its causes say. -/
def Obligations.PowerOnAndPorst : Prop :=
  ∀ s : State,
    Runs .powerOn s (fun t => t.mode.mode = .reset ∧ t.recorder = {} ∧ t.clock = {} ∧ t.mode.alertCause = 0 ∧
      t.otp = s.otp ∧ t.wot = {} ∧ t.eng = {} ∧ t.locks = [] ∧
      ∀ d, d < 4 → (t.die d).inReset = true ∧ SameMedia (t.die d) (s.die d)) ∧
    Runs (.porstN false) s (fun t => t.mode.mode = .reset ∧ t.pins.porst = false ∧ t.clock.rootLock = false ∧
      t.clock.tb = 0 ∧ StickyKept s t ∧ t.otp = s.otp ∧
      t.wot = {} ∧ t.eng = {} ∧ t.locks = [] ∧ t.mode.dump = .done ∧
      ∀ d, d < 4 → (t.die d).inReset = true ∧ SameMedia (t.die d) (s.die d)) ∧
    Runs (.porstN true) s (fun t =>
      t = { s with pins := { s.pins with porst := true, alert := t.pins.alert }, clock := { s.clock with tb := 0 } } ∧
      (t.pins.alert = true ↔ s.mode.alertCause &&& ~~~s.mode.alertMask ≠ 0))

/-- Resets that keep the clocks. WRST_N low and the end of a MODESET RESET's delay, outside RESET and HOLDUP, and the end of
HOLDUP with power back, put the package in RESET with the root PLL and time base running and the OTP settings kept. A store
die whose home part is live stays out of reset for its reset dump, every other is in reset; the end of HOLDUP writes none.
RESET_RELEASE starts BOOT. -/
def Obligations.WarmResets : Prop :=
  ∀ s : State,
    (∀ c : Instr, (c = .wrstN false ∨ (c = .resetDelayEnd ∧ s.mode.resetScheduled = true)) → Awake s →
      Runs c s (fun t => t.mode.mode = .reset ∧ t.clock.rootLock = s.clock.rootLock ∧ t.clock.tb = s.clock.tb ∧
        t.otp = s.otp ∧ t.recorder.store = s.recorder.store ∧ t.wot = {} ∧ t.locks = [] ∧
        (SomeLive s → t.mode.dump = .programs) ∧ (¬ SomeLive s → t.mode.dump = .done) ∧
        ∀ d, d < 4 → (t.die d).inReset = !(s.die d).live ∧ SameMedia (t.die d) (s.die d))) ∧
    (¬ Awake s → exec (.wrstN false) s = .next { s with pins := { s.pins with wrst := false } }) ∧
    exec (.wrstN true) s = .next { s with pins := { s.pins with wrst := true } } ∧
    (s.mode.mode = .holdup → s.mode.dump = .done → s.pins.pfail = true → s.pins.supplyBad = [] →
      Runs .holdupRestart s (fun t => t.mode.mode = .reset ∧ t.clock.rootLock = s.clock.rootLock ∧ t.clock.tb = s.clock.tb ∧
        t.otp = s.otp ∧
        ∀ d, d < 4 → (t.die d).inReset = true ∧ SameMedia (t.die d) (s.die d))) ∧
    (s.mode.mode = .reset → s.pins.porst = true → s.pins.wrst = true → s.pins.pfail = true → s.pins.supplyBad = [] →
      s.clock.rootLock = true → (∀ d, d < 4 → (s.die d).inReset = true) →
      Runs .resetRelease s (fun t => t.mode.mode = .boot ∧ t.clock.cycles = 0 ∧ t.clock.tb = s.clock.tb ∧
        (∀ d, d < 4 → t.die d = { s.die d with inReset := false }) ∧
        t = { s with clock := t.clock, dies := t.dies, mode := { s.mode with mode := .boot }, recorder := t.recorder }))

/-- HOLDUP begins. PFAIL_N low, and a die's supply monitor that trips, start HOLDUP outside RESET and HOLDUP: connections,
commands, invocations and locks end; the OTP settings, tables, lease and fabric stand. In RESET with no dump running PFAIL_N
low only keeps the package there. -/
def Sys2Proof.Stmt.HoldupBegins : Prop :=
  ∀ (s : State), Awake s →
    (∀ (c : Instr), (c = .pfailN false ∨ ∃ die, die < 5 ∧ c = .supplyTrip die false) →
      Runs c s (fun t => t.mode.mode = .holdup ∧ t.wot.conns = [] ∧ t.eng.cmds = [] ∧ t.eng.ctxs = [] ∧
        t.eng.mgmt = [] ∧ t.locks = [] ∧ t.otp = s.otp ∧ t.tables = s.tables ∧ t.clock = s.clock ∧
        t.lease = s.lease ∧ t.fab = s.fab ∧
        (SomeLive s → t.mode.dump = .programs) ∧ (¬ SomeLive s → t.mode.dump = .done))) ∧
    (∀ die, die < 5 → Runs (.supplyTrip die false) s (fun t => (t.mon die).tripped = true)) ∧
    exec (.pfailN true) s = .next { s with pins := { s.pins with pfail := true } } ∧
    (∀ r : State, r.mode.mode = .reset → (r.mode.dump = .idle ∨ r.mode.dump = .done) →
      exec (.pfailN false) r = .next { r with pins := { r.pins with pfail := false } })

/-- Dumps run to their end. When the SLC programs have ended each store die starts its dump; the end of a die's dump adds
the image of its mirrored records to its media, in RESET also puts the die in reset, and the dump is over when no die owes
one. The step that starts the dumps is the model's reading (log 32). -/
def Sys2Proof.Stmt.DumpSteps : Prop :=
  (∀ s : State, s.mode.dump = .programs →
    Runs .slcProgramsEnd s (fun t => t = { s with mode := { s.mode with dump := t.mode.dump } } ∧
      (DumpOwed s → t.mode.dump = .dumping) ∧ (¬ DumpOwed s → t.mode.dump = .done))) ∧
  (∀ (s : State) (die : Nat), die < 4 → s.mode.dump = .dumping → (s.die die).live = true → (s.die die).dumped = false →
    (s.mode.mode = .holdup → Runs (.dumpDone die) s (fun t =>
      t.die die = (s.die die).dump s.geo die ∧ (t.die die).dumped = true ∧
      (∃ rest, (t.die die).images = (s.die die).dumpImage die false :: rest) ∧
      (∀ e, e ≠ die → t.die e = s.die e) ∧
      t = { s with dies := t.dies, mode := { s.mode with dump := t.mode.dump } } ∧
      (DumpOwed t → t.mode.dump = .dumping) ∧ (¬ DumpOwed t → t.mode.dump = .done))) ∧
    (s.mode.mode = .reset → Runs (.resetDumpDone die) s (fun t =>
      (t.die die).inReset = true ∧
      t.die die = ((s.die die).dump s.geo die).reset ∧
      (∃ rest, (t.die die).images = (s.die die).dumpImage die false :: rest) ∧
      (∀ e, e ≠ die → t.die e = s.die e) ∧
      t = { s with dies := t.dies, mode := { s.mode with dump := t.mode.dump } } ∧
      (DumpOwed t → t.mode.dump = .dumping) ∧ (¬ DumpOwed t → t.mode.dump = .done))))

/-- HOLDUP and dumps. `Stmt.HoldupBegins` and `Stmt.DumpSteps` both hold. -/
def Obligations.HoldupAndDumps : Prop := Stmt.HoldupBegins ∧ Stmt.DumpSteps

/-- The reference clock. Loss of the reference while locked puts the root PLL in holdover with REFLOSS set; a valid
reference relocks it; neither changes the time base or anything outside the clock unit. That a command whose conditions do
not hold changes nothing is the model's choice (log 1). -/
def Sys2Proof.Stmt.ReferenceClock : Prop :=
  ∀ s : State,
    (s.clock.rootLock = true →
      exec .refclkLoss s = .next { s with
        clock := { s.clock with rootLock := false, holdover := true, refLoss := true } }) ∧
    (s.clock.rootLock = false → Idle .refclkLoss s) ∧
    exec .refclkRelock s = .next { s with clock := { s.clock with rootLock := true, holdover := false } }

/-- Temperature samples. A sample at 100 °C or above sets HOT, one at 97 °C or below clears it, between them it stays; a new
HOT sets ALERT_CAUSE.THERMAL; THERMTRIP_N is driven after two samples at 115 °C or above and released once every die is
below 100 °C. The stack temperature a store die's sample takes is a free value (log 3). -/
def Sys2Proof.Stmt.TemperatureSamples : Prop :=
  ∀ (s : State) (die : Nat) (tj : BitVec 12), die < 5 →
    Runs (.tempSample die tj) s (fun t =>
      (t.mon die).tj = tj ∧ (t.mon die).tripped = (s.mon die).tripped ∧
      (400 ≤ tj.toInt → (t.mon die).hot = true) ∧ (tj.toInt ≤ 388 → (t.mon die).hot = false) ∧
      (388 < tj.toInt → tj.toInt < 400 → (t.mon die).hot = (s.mon die).hot) ∧
      (400 ≤ tj.toInt → (s.mon die).hot = false → t.mode.alertCause.getLsbD 6 = true) ∧
      (460 ≤ tj.toInt → (s.mon die).over115 = true → t.pins.thermTrip = true) ∧
      (tj.toInt < 400 → (∀ e, e < 5 → e ≠ die → (s.mon e).tj.toInt < 400) → t.pins.thermTrip = false) ∧
      (tj.toInt < 460 → 400 ≤ tj.toInt → t.pins.thermTrip = s.pins.thermTrip) ∧
      (∀ e, e ≠ die → t.mon e = s.mon e) ∧
      (∀ d, d + 1 ≠ die → t.die d = s.die d) ∧
      t = { s with mons := t.mons, dies := t.dies, draws := t.draws, pins := t.pins,
                   mode := { s.mode with alertCause := t.mode.alertCause } })

/-- The reference clock and the temperatures. `Stmt.ReferenceClock` and `Stmt.TemperatureSamples` both hold. -/
def Obligations.ClockAndTemperature : Prop := Stmt.ReferenceClock ∧ Stmt.TemperatureSamples

/-! ## The mastership lease, boot, training, mount -/

/-- The port die has sent the grant of `epoch` to every store die: one out of reset and reachable has received it (R462). -/
def Sys2Proof.Stmt.GrantSent (s t : State) (epoch : Nat) : Prop :=
  ∀ d, d < 4 → t.die d =
    if (s.die d).inReset = false ∧ (s.die d).cause ≠ 1 then { s.die d with grant := epoch } else s.die d

/-- Store die d is the one holder, of the next epoch, for 200 µs. -/
def Sys2Proof.Stmt.Granted (s t : State) (d : Nat) : Prop :=
  t.lease.holder = d ∧ t.lease.state = .held ∧ t.lease.epoch = (s.lease.epoch + 1) % 2 ^ 24 ∧
  t.lease.termEnd = s.clock.cycles + 20000 ∧ Stmt.GrantSent s t ((s.lease.epoch + 1) % 2 ^ 24)

/-- Lease grants. LEASE_REQUEST of a die that may request queues the die, or grants at once when no lease is held and ELECT
is over; ELECT_GRANT grants the first requester in the order of MASTERPREF and ends ELECT; LEASE_GAP_END grants to the die
that MASTERMOVE named, if it still requests, else by that order. A grant makes the die the one holder, raises EPOCH by 1
modulo 2^24, gives a term of 200 µs and reaches every store die out of reset and reachable. -/
def Sys2Proof.Stmt.LeaseGrants : Prop :=
  (∀ (s : State) (d : Nat), d < 4 → s.mode.mode ≠ .reset → s.mode.mode ≠ .holdup → (s.die d).inReset = false →
    (s.die d).stackLost = false → (s.die d).cascade = true → (s.die d).cause ≠ 1 →
    ¬ (s.lease.state = .held ∧ s.lease.holder = d) →
    Runs (.leaseRequest d) s (fun t =>
      if s.lease.state = .none ∧ s.mode.mode ≠ .boot ∧ s.mode.mode ≠ .elect then
        Stmt.Granted s t d
      else d ∈ t.lease.requests ∧ t = { s with lease := { s.lease with requests := t.lease.requests } })) ∧
  (∀ (s : State) (d : Nat), s.mode.mode = .elect → s.lease.state = .none → d < 4 → d ∈ s.lease.requests →
    (∀ e, e ∈ s.lease.requests → e < 4 → (d + 4 - s.otp.masterPref) % 4 ≤ (e + 4 - s.otp.masterPref) % 4) →
    s.otp.masterPref < 4 →
    Runs .electGrant s (fun t => Stmt.Granted s t d ∧ t.mode.mode = .linkup ∧ t.cause 3 = false)) ∧
  (∀ (s : State) (d : Nat), s.lease.state = .gap → d < 4 → s.lease.named = d → d ∈ s.lease.requests →
    s.mayRequestLease d = true →
    Runs .leaseGapEnd s (fun t => Stmt.Granted s t d ∧ t.lease.named = 255)) ∧
  (∀ (s : State) (d : Nat), s.lease.state = .gap → d < 4 → d ∈ s.lease.requests → s.mayRequestLease d = true →
    (s.lease.named ∈ s.lease.requests → s.mayRequestLease s.lease.named = false) → s.otp.masterPref < 4 →
    (∀ e, e ∈ s.lease.requests → e < 4 → s.mayRequestLease e = true →
      (d + 4 - s.otp.masterPref) % 4 ≤ (e + 4 - s.otp.masterPref) % 4) →
    Runs .leaseGapEnd s (fun t => Stmt.Granted s t d ∧ t.lease.named = 255)) ∧
  (∀ (s : State), s.lease.state = .gap → s.lease.requests = [] →
    exec .leaseGapEnd s = .next { s with lease := { s.lease with state := .none, named := 255 } })

/-- Lease ends. LEASE_TERM_END, and a renewal that MASTERMOVE has refused, end the lease: no holder, the gap begins,
MASTER_LOST is raised with its cause. Any other renewal gives a new term of 200 µs and is sent to every store die, and
changes nothing else. ELECT_TIMEOUT ends ELECT with no holder. NOMASTER_TIMEOUT without a holder sets cause NOMASTER. That
the event carries the last commit number assigned is the model's choice (log 10). -/
def Sys2Proof.Stmt.LeaseEnds : Prop :=
  ∀ s : State,
    (s.lease.state = .held →
      Runs .leaseTermEnd s (fun t => t.lease = { s.lease with holder := 7, state := .gap, refuse := none } ∧
        t = { s with lease := t.lease, recorder := t.recorder } ∧
        (s.mode.mode ≠ .reset → Raised s t 0x0018 0xC000 s.lease.epoch s.lease.holder 1 0)) ∧
      (s.lease.refuse = none → Runs .leaseRenewal s (fun t => Stmt.GrantSent s t s.lease.epoch ∧
        t = { s with lease := { s.lease with termEnd := s.clock.cycles + 20000 }, dies := t.dies })) ∧
      (∀ d, s.lease.refuse = some d →
        Runs .leaseRenewal s (fun t => t.lease = { s.lease with holder := 7, state := .gap, refuse := none } ∧
          t = { s with lease := t.lease, recorder := t.recorder } ∧
          (s.mode.mode ≠ .reset → Raised s t 0x0018 0xC000 s.lease.epoch s.lease.holder 4 0)))) ∧
    (s.mode.mode = .elect → s.lease.state = .none →
      Runs .electTimeout s (fun t => t.mode.mode = .linkup ∧
        t = { s with mode := { s.mode with mode := .linkup }, recorder := t.recorder } ∧
        Raised s t 0x0010 0xB000 (s.commitNow % 2 ^ 32) (s.commitNow / 2 ^ 32) (2 + 16 * 3) s.mode.degr.toNat)) ∧
    (s.lease.state ≠ .held → s.mode.mode ≠ .reset →
      Runs .nomasterTimeout s (fun t => t.cause 3 = true ∧ (∀ n, n ≠ 3 → t.cause n = s.cause n) ∧
        (s.cause 3 = false → s.mode.mode = .service → t.mode.mode = .degraded) ∧
        t = { s with mode := t.mode, pins := t.pins, recorder := t.recorder }))

/-- The mastership lease. `Stmt.LeaseGrants` and `Stmt.LeaseEnds` both hold. -/
def Obligations.MastershipLease : Prop := Stmt.LeaseGrants ∧ Stmt.LeaseEnds

/-- BOOT_END. With no slot valid the package stays in BOOT with BOOT_STAT telling why. With a valid image the package enters
ELECT; for an image with no SETTINGS and no TABLES section, its profiles are placed, BOOT_STAT reports no failed write and
every die tells whether it has its stack. -/
def Sys2Proof.Stmt.BootEnds : Prop :=
  ∀ (s : State) (nor : NorRead), s.mode.mode = .boot → s.mode.bootFailed = false →
    ((bootFind nor).slot = none → exec (.bootEnd nor) s = .next { s with
      mode := { s.mode with bootFailed := true, bootStat := bootStatOf (bootFind nor) 0 none } }) ∧
    (∀ k, (bootFind nor).slot = some k → Runs (.bootEnd nor) s (fun t => t.mode.mode = .elect)) ∧
    (∀ k image, (bootFind nor).slot = some k → image = (if k = 0 then nor.slot0 else nor.slot1) →
      sectionOf image 2 = none → sectionOf image 4 = none →
      Runs (.bootEnd nor) s (fun t => t.profiles = imageProfiles image ∧
        t.mode.bootStat = bootStatOf (bootFind nor) 0 none ∧ t.otp = s.otp ∧ t.net = s.net ∧ t.wot = s.wot ∧
        ∀ d, d < 4 → (t.die d).stackTrained = !(s.die d).stackLost ∧ SameMedia (t.die d) (s.die d)))

/-- LINKUP. LINKUP_TIMEOUT ends LINKUP in IMPORT when a store die holds EZ-64 media and IMPORTDIS is 0, else in MOUNT. A
flash channel's first training in LINKUP or later ends; when its dies fit one profile and every target passes at the same
bin, the channel runs at that bin with those dies, its deskew stored. A MAC whose lanes have trained is up with its flow
control at XON, one whose lanes failed is marked so. That the physical outcome is an operand is the model's choice (log 30).
-/
def Sys2Proof.Stmt.LinkupTraining : Prop :=
  (∀ s : State, s.mode.mode = .linkup →
    Runs .linkupTimeout s (fun t =>
      ((∃ d, d < 4 ∧ (s.die d).ez64 = true) → s.otp.importDis = false → t.mode.mode = .imports) ∧
      ((∀ d, d < 4 → (s.die d).ez64 = false) ∨ s.otp.importDis = true → t.mode.mode = .mount) ∧
      t = { s with mode := { s.mode with mode := t.mode.mode }, recorder := t.recorder })) ∧
  (∀ (s : State) (die ch : Nat) (ids : List DieId) (results : List Trained) (desk : List Deskew), die < 4 → ch < 64 →
    s.mode.mode.trains = true → (s.die die).inReset = false → ((s.die die).channel ch).trainEnded = false →
    ((s.die die).channel ch).retired = false →
    Wf.desk desk = true →
    Runs (.channelTrainingDone die ch ids results desk) s (fun t => ((t.die die).channel ch).trainEnded = true ∧
      t.otp = s.otp ∧ t.tables = s.tables ∧
      (s.diesGood ids = true → ((s.die 0).channel 0).trainEnded = false →
        (∀ i, i < 16 → ((s.die die).flashDie (ch * 16 + i)).failed = false) →
        ∀ b, b ≤ targetBin (leAt ((s.profileFor ((s.usedIds ids).headD noDie).id).getD []) 16 2) (s.usedIds ids) →
          (∀ k, k < 4 → results.getD k .failed = .bin b) →
          ((t.die die).channel ch).trained = true ∧ ((t.die die).channel ch).bin = b ∧
          ((t.die die).channel ch).retired = false ∧ ((t.die die).channel ch).dies = (s.usedIds ids).length))) ∧
  (∀ (s : State) (m : Nat), m < 128 → s.macPresent m = true → (s.mac m).link = false → s.mode.mode.trains = true →
    s.macLanes m ≠ [] →
    Runs (.laneTrainingDone m true) s (fun t => (t.mac m).link = true ∧ (t.mac m).xoff = [] ∧ (t.mac m).paused = [] ∧
      (∀ l, l ∈ s.macLanes m → (t.lane l).inService = true ∧ (t.lane l).lock = true) ∧
      (∀ l, l ∉ s.macLanes m → t.lane l = s.lane l) ∧ (∀ n, n ≠ m → t.mac n = s.mac n) ∧
      t = { s with net := t.net, mode := t.mode, recorder := t.recorder, draws := t.draws }) ∧
    Runs (.laneTrainingDone m false) s (fun t => (t.mac m).link = false ∧ (t.mac m).trainFailed = true ∧
      (∀ n, n ≠ m → t.mac n = s.mac n)))

/-- The end of BOOT and the training of LINKUP. `Stmt.BootEnds` and `Stmt.LinkupTraining` both hold. -/
def Obligations.BootAndTraining : Prop := Stmt.BootEnds ∧ Stmt.LinkupTraining

/-- MOUNT. In MOUNT, a store die that may mount and has what its mount needs becomes ready, live and in service; while
another die is still mounting the package stays in MOUNT. One that cannot mount goes offline with the cause. NOGEN_TIMEOUT
after MOUNT with no generation sets NOGEN and enters DEGRADED. That the physical outcome is an operand is the model's choice
(log 30). -/
def Sys2Proof.Stmt.MountSteps : Prop :=
  (∀ (s : State) (d e : Nat) (find : MountFind), d < 4 → e < 4 → e ≠ d → (s.die e).cause = 0 → (s.die e).ready = false →
    s.mode.mode = .mount → s.mode.mounted = false → s.mayMount d = true → (s.die d).cause = 0 →
    (s.mountStop d find = none →
      Runs (.mountDieReady d find) s (fun t => (t.die d).ready = true ∧ (t.die d).live = true ∧
        (t.die d).online = true ∧ (t.die d).dumped = false ∧ t.mode.mode = .mount ∧ t.mode.mounted = false ∧
        t.otp = s.otp ∧ t.net = s.net)) ∧
    (∀ c, s.mountStop d find = some c →
      Runs (.mountDieReady d find) s (fun t => (t.die d).cause = c ∧ (t.die d).online = false ∧
        (t.die d).unformatted = decide (c = 5) ∧ t.cause 1 = true ∧ t.otp = s.otp))) ∧
  (∀ s : State, s.mode.mode = .mount ∨ s.mode.mode = .imports → s.mode.mounted = true → s.selfMember = none →
    Runs .nogenTimeout s (fun t => t.mode.mode = .degraded ∧ t.cause 6 = true))

/-- FORMAT_COMPLETE. In FORMAT, with no Transom request left, the package enters MOUNT with a new history: package tables
and handler table empty with a derived HKEY, no selection row, commit numbers restarting, and each die that takes part with
an empty directory and no slot written, one epoch, a newer key table, its retirements kept and those of factory-marked
blocks added. The OTP settings stand. What a format draws is the model's reading (log 87). -/
def Sys2Proof.Stmt.FormatEnds : Prop :=
  ∀ s : State, s.mode.mode = .format → s.eng.treqs = [] →
    Runs .formatComplete s (fun t => t.mode.mode = .mount ∧ t.mode.mounted = false ∧ t.cause 5 = false ∧
      t.tables = { hkey := hkeySecret s.otp.fabDom } ∧ t.eng.handlers = [] ∧ t.eng.progs = [] ∧
      t.sel.rows = [] ∧ t.sel.copies = [] ∧ t.wot.lastCommit = 0 ∧ t.wot.conns = s.wot.conns ∧ t.otp = s.otp ∧
      ∀ d, d < 4 → (s.die d).cause ≠ 1 → (t.die d).dir = [] ∧ (t.die d).slots = [] ∧ (t.die d).epochs.length = 1 ∧
        (∃ more, (t.die d).retired = (s.die d).retired ++ more) ∧ ((∀ f, f ∈ (s.die d).flash → f.2.marked = []) → (t.die d).retired = (s.die d).retired) ∧
        (t.die d).keySeq = (s.die d).keySeq + 1 ∧ (t.die d).live = false)

/-- MOUNT and FORMAT. `Stmt.MountSteps` and `Stmt.FormatEnds` both hold. -/
def Obligations.MountAndFormat : Prop := Stmt.MountSteps ∧ Stmt.FormatEnds

/-! ## Ethernet -/

/-- FRAME_RECEIVE. A frame that fails a check is counted by that check's counter and nothing else of the package changes; a
PHY error counts in RX_PHYERR's counter. A frame for the WOT terminator, the fabric or the PTP queue that passes goes to the
end of the ring of its priority with its timestamp, and RX_OCTETS and RX_FRAMES count it. A MAC whose link is down takes no
frame. That a command whose conditions do not hold changes nothing is the model's choice (log 1). -/
def Obligations.FrameReceive : Prop :=
  ∀ (s : State) (m : Nat) (o : Octets) (bad : Bool), m < 128 → s.macPresent m = true →
    ((s.mac m).link = false → Idle (.frameReceive m o bad) s) ∧
    ((s.mac m).link = true →
      (∀ i, s.rxCheck m o bad (parseEth (o.take (o.length - 4))) (parseIp (parseEth (o.take (o.length - 4)))) = some i →
        Runs (.frameReceive m o bad) s (fun t =>
          tabGet (fun _ => 0) (t.mac m).counters i = (tabGet (fun _ => 0) (s.mac m).counters i + 1) % 2 ^ 64 ∧
          t.mac m = { s.mac m with counters := (t.mac m).counters } ∧
          (∀ j, j ≠ i → tabGet (fun _ => 0) (t.mac m).counters j = tabGet (fun _ => 0) (s.mac m).counters j) ∧
          (∀ n, n ≠ m → t.mac n = s.mac n) ∧ t = { s with net := { s.net with macs := t.net.macs } })) ∧
      (bad = true → s.groupStopped (m / 4) = false →
        s.rxCheck m o bad (parseEth (o.take (o.length - 4))) (parseIp (parseEth (o.take (o.length - 4)))) = some 3) ∧
      (∀ c, s.rxCheck m o bad (parseEth (o.take (o.length - 4))) (parseIp (parseEth (o.take (o.length - 4)))) = none →
        s.rxClass m (parseEth (o.take (o.length - 4))) (parseIp (parseEth (o.take (o.length - 4)))) = c →
        c = .ptp ∨ c = .fabric ∨ c = .wot →
        Runs (.frameReceive m o bad) s (fun t => ∃ p,
          p = rxPrio (s.mac m).live (parseEth (o.take (o.length - 4))) (parseIp (parseEth (o.take (o.length - 4)))) ∧
          (t.mac m).ring p = (s.mac m).ring p ++
            [{ octets := o, time := s.now + ((s.mac m).tsAdj.extractLsb' 16 16).signExtend 64 }] ∧
          (∀ q, q ≠ p → (t.mac m).ring q = (s.mac m).ring q) ∧
          tabGet (fun _ => 0) (t.mac m).counters 0 = (tabGet (fun _ => 0) (s.mac m).counters 0 + o.length) % 2 ^ 64 ∧
          tabGet (fun _ => 0) (t.mac m).counters 1 = (tabGet (fun _ => 0) (s.mac m).counters 1 + 1) % 2 ^ 64 ∧
          (∀ n q, n ≠ m → (t.mac n).ring q = (s.mac n).ring q) ∧ t = { s with net := t.net })))

/-- A frame sent by MAC m counts in TX_OCTETS and TX_FRAMES. -/
def Sys2Proof.Stmt.TxCounted (s t : State) (m : Nat) (o : Octets) : Prop :=
  tabGet (fun _ => 0) (t.mac m).counters 17 = (tabGet (fun _ => 0) (s.mac m).counters 17 + o.length) % 2 ^ 64 ∧
  tabGet (fun _ => 0) (t.mac m).counters 18 = (tabGet (fun _ => 0) (s.mac m).counters 18 + 1) % 2 ^ 64

/-- Every ring stands, and every queue but the one that `served` names only takes frames whose producers waited: with none waiting
it stands. -/
def Sys2Proof.Stmt.QueuesGrew (s t : State) (served : Nat → Nat → Prop) : Prop :=
  ∀ n, (t.mac n).rings = (s.mac n).rings ∧ ∀ q, ¬ served n q →
    (∃ more, (t.mac n).queue q = (s.mac n).queue q ++ more) ∧
    ((∀ k, (s.mac k).waiting = []) → (t.mac n).queue q = (s.mac n).queue q)

/-- TX_FRAME_START. With the link up a due pause frame leaves first; else the first frame of the highest-numbered queue that
holds one and is not paused, with its FCS; TX_OCTETS and TX_FRAMES count it, and a queue changes besides only by frames
whose producers waited for room. With the link down the first frame of the highest-numbered queue that holds one is
discarded and counted. A stopped port group sends nothing. That a command whose conditions do not hold changes nothing is
the model's choice (log 1). -/
def Sys2Proof.Stmt.FrameTransmit : Prop :=
  ∀ (s : State) (m : Nat), m < 128 → s.macPresent m = true →
    (s.groupStopped (m / 4) = true → Idle (.txFrameStart m) s) ∧
    (s.groupStopped (m / 4) = false →
      (∀ d rest, (s.mac m).link = true → (s.mac m).pauseDue = d :: rest →
        Runs (.txFrameStart m) s (fun t => t.net.wire = (m, withFcs (pauseFrame (s.mac m).live d)) :: s.net.wire ∧
          (t.mac m).pauseDue = rest ∧ Stmt.TxCounted s t m (withFcs (pauseFrame (s.mac m).live d)) ∧
          Stmt.QueuesGrew s t (fun _ _ => False) ∧ t = { s with net := t.net })) ∧
      (∀ p f rest, (s.mac m).pauseDue = [] → p < 8 → (s.mac m).queue p = f :: rest →
        ((s.mac m).link = true → tabGet (fun _ => 0) (s.mac m).paused p = 0 →
          (∀ q, p < q → q < 8 → (s.mac m).queue q = [] ∨ tabGet (fun _ => 0) (s.mac m).paused q ≠ 0) →
          Runs (.txFrameStart m) s (fun t => t.net.wire = (m, withFcs f.octets) :: s.net.wire ∧
            (∃ more, (t.mac m).queue p = rest ++ more) ∧ ((∀ n, (s.mac n).waiting = []) → (t.mac m).queue p = rest) ∧
            Stmt.TxCounted s t m (withFcs f.octets) ∧ Stmt.QueuesGrew s t (fun n q => n = m ∧ q = p) ∧
            t = { s with net := t.net })) ∧
        ((s.mac m).link = false → (∀ q, p < q → q < 8 → (s.mac m).queue q = []) →
          Runs (.txFrameStart m) s (fun t => t.net.wire = s.net.wire ∧ (∃ more, (t.mac m).queue p = rest ++ more) ∧
            ((∀ n, (s.mac n).waiting = []) → (t.mac m).queue p = rest) ∧ Stmt.QueuesGrew s t (fun n q => n = m ∧ q = p) ∧
            tabGet (fun _ => 0) (t.mac m).counters 21 = (tabGet (fun _ => 0) (s.mac m).counters 21 + 1) % 2 ^ 64 ∧
            t = { s with net := t.net }))))

/-- Pausing. PAUSE_REFRESH repeats a state still XOFF, with QUANTA: a PFC frame due last in the same cycle without the
priority takes it, else a PFC frame of that priority, or a PAUSE frame, becomes due; with no state XOFF nothing does.
PAUSE_EXPIRY releases the queue, or every queue under PAUSE. Neither changes another MAC or anything outside the packet
network. That a command whose conditions do not hold changes nothing is the model's choice (log 1). -/
def Sys2Proof.Stmt.Pausing : Prop :=
  ∀ (s : State) (m p : Nat), m < 128 → p < 8 →
    ((s.mac m).link = true → fcMode (s.mac m).live = 2 → pfcEn (s.mac m).live p = true →
      tabGet (fun _ => false) (s.mac m).xoff p = true →
      (∀ d rest, (s.mac m).pauseDue = rest ++ [d] → d.pfc = true → d.cycle = s.clock.cycles → (∀ e, e ∈ d.prios → e.1 ≠ p) →
        exec (.pauseRefresh m p) s = .next (s.modMac m (fun x => { x with
          pauseDue := rest ++ [{ d with prios := d.prios ++ [(p, fcQuanta (s.mac m).live)] }] }))) ∧
      ((∀ d rest, (s.mac m).pauseDue = rest ++ [d] → d.pfc = false ∨ d.cycle ≠ s.clock.cycles ∨ ∃ e, e ∈ d.prios ∧ e.1 = p) →
        exec (.pauseRefresh m p) s = .next (s.modMac m (fun x => { x with
          pauseDue := x.pauseDue ++ [{ pfc := true, prios := [(p, fcQuanta (s.mac m).live)], cycle := s.clock.cycles }] })))) ∧
    ((s.mac m).link = true → fcMode (s.mac m).live = 1 → (s.mac m).pauseSent = true →
      exec (.pauseRefresh m p) s = .next (s.modMac m (fun x => { x with
        pauseDue := x.pauseDue ++ [{ pfc := false, prios := [(0, fcQuanta (s.mac m).live)], cycle := s.clock.cycles }] }))) ∧
    ((s.mac m).link = false ∨ (¬ (fcMode (s.mac m).live = 2 ∧ pfcEn (s.mac m).live p = true ∧
        tabGet (fun _ => false) (s.mac m).xoff p = true) ∧
      ¬ (fcMode (s.mac m).live = 1 ∧ (s.mac m).pauseSent = true)) → Idle (.pauseRefresh m p) s) ∧
    Runs (.pauseExpiry m p) s (fun t => tabGet (fun _ => 0) (t.mac m).paused p = 0 ∧
      (fcMode (s.mac m).live ≠ 1 → ∀ q, q ≠ p → tabGet (fun _ => 0) (t.mac m).paused q = tabGet (fun _ => 0) (s.mac m).paused q) ∧
      (fcMode (s.mac m).live = 1 → (t.mac m).paused = []) ∧
      t.mac m = { s.mac m with paused := (t.mac m).paused } ∧
      (∀ n, n ≠ m → t.mac n = s.mac n) ∧ t = { s with net := { s.net with macs := t.net.macs } })

/-- Transmission and pausing. `Stmt.FrameTransmit` and `Stmt.Pausing` both hold. -/
def Obligations.TransmitAndPause : Prop := Stmt.FrameTransmit ∧ Stmt.Pausing

/-- Links and lanes. LINK_UP of a present MAC whose lanes hold block lock brings its link up with flow control at XON.
LINK_DOWN takes it down, counts it in its port group and raises LINK_DOWN, its queues kept; a link that is down stays so.
LANE_FAULT takes the lane out of lock and the link of the MAC that uses it down, no MAC's when none does; below the fourth
retrain of the window the lane retrains, at it the lane is mapped out. That a command whose conditions do not hold changes
nothing is the model's choice (log 1). -/
def Obligations.LinkAndLaneEvents : Prop :=
  (∀ (s : State) (m : Nat), m < 128 → s.macPresent m = true → (s.mac m).link = false → s.mode.mode.trains = true →
    s.macLanes m ≠ [] → (∀ l, l ∈ s.macLanes m → (s.lane l).lock = true) →
    Runs (.linkUp m) s (fun t => (t.mac m).link = true ∧ (t.mac m).trainFailed = false ∧ (t.mac m).xoff = [] ∧
      (t.mac m).pauseSent = false ∧ (t.mac m).paused = [] ∧ (t.mac m).rings = (s.mac m).rings ∧
      (∀ n, n ≠ m → t.mac n = s.mac n) ∧ t = { s with net := t.net, mode := t.mode, recorder := t.recorder })) ∧
  (∀ (s : State) (m : Nat), m < 128 →
    ((s.mac m).link = false → Idle (.linkDown m) s) ∧
    ((s.mac m).link = true → Runs (.linkDown m) s (fun t => (t.mac m).link = false ∧
      (t.mac m).queues = (s.mac m).queues ∧ (t.mac m).rings = (s.mac m).rings ∧
      (t.group (m / 4)).linkDown = ((s.group (m / 4)).linkDown + 1) % 2 ^ 64 ∧
      (∀ n, n ≠ m → t.mac n = s.mac n) ∧ (∀ g, g ≠ m / 4 → t.group g = s.group g) ∧
      t = { s with net := t.net, recorder := t.recorder }))) ∧
  (∀ (s : State) (l cause : Nat), l < 128 → cause = 1 ∨ cause = 2 → (s.lane l).inService = true →
    Runs (.laneFault l cause) s (fun t => (t.lane l).lock = false ∧
      (t.lane l).retrains = countIn (s.lane l).retrains (s.lane l).window (s.windowNo 6000000000) ∧
      (4 ≤ (t.lane l).retrains → (t.lane l).mapped = true ∧ (t.lane l).inService = false) ∧
      ((t.lane l).retrains < 4 → (t.lane l).retraining = true ∧ (t.lane l).mapped = (s.lane l).mapped) ∧
      (∀ k, k ≠ l → t.lane k = s.lane k) ∧ (l ∈ s.macLanes (s.macOfLane l) → (t.mac (s.macOfLane l)).link = false) ∧
      (l ∉ s.macLanes (s.macOfLane l) → t.net.macs = s.net.macs) ∧
      t.otp = s.otp ∧ t.wot = s.wot ∧ t.eng = s.eng ∧ t.dies = s.dies))

/-- RING_TAKE. With every ring empty nothing happens. Else the first frame of the ring next in the rotation leaves it: a PTP
frame joins the PTP receive queue while that holds fewer than 64, else it is counted in RX_PTPDROP; an INIT frame for the
WOT terminator joins its work; a frame for no one ends. That a command whose conditions do not hold changes nothing is the
model's choice (log 1). -/
def Obligations.RingTake : Prop :=
  ∀ s : State, (s.nextRing = none → Idle .ringTake s) ∧
    ∀ m p f rest h ip, s.nextRing = some (m, p) → (s.mac m).ring p = f :: rest →
      h = parseEth (f.octets.take (f.octets.length - 4)) → ip = parseIp h →
      (s.rxClass m h ip = .ptp → s.net.ptpQueue.length < 64 →
        Runs .ringTake s (fun t => t.net.ptpQueue = s.net.ptpQueue ++ [(m, f)] ∧ (t.mac m).ring p = rest ∧
          t.net.lastMac = m ∧ t = { s with net := t.net })) ∧
      (s.rxClass m h ip = .ptp → 64 ≤ s.net.ptpQueue.length →
        Runs .ringTake s (fun t => t.net.ptpQueue = s.net.ptpQueue ∧ (t.mac m).ring p = rest ∧
          tabGet (fun _ => 0) (t.mac m).counters 16 = (tabGet (fun _ => 0) (s.mac m).counters 16 + 1) % 2 ^ 64 ∧
          t = { s with net := t.net })) ∧
      (∀ i, ip = some i → s.rxClass m h ip = .wot → wotHeadBad (i.l4.drop 8) = false → beAt (i.l4.drop 8) 0 1 % 16 = 1 →
        Runs .ringTake s (fun t => (∃ path, t.wot.term = s.wot.term ++ [.init path (i.l4.drop 8)]) ∧
          (t.mac m).ring p = rest ∧ t.net.lastMac = m ∧ t = { s with net := t.net, wot := { s.wot with term := t.wot.term } })) ∧
      (s.rxClass m h ip = .other → Runs .ringTake s (fun t => (t.mac m).ring p = rest ∧
          (∀ q, q ≠ p → (t.mac m).ring q = (s.mac m).ring q) ∧ t.net.lastMac = m ∧ t = { s with net := t.net }))

/-! ## Wenieto Object Transport -/

namespace Sys2Proof.Stmt

/-- Item `i` of live connection `c` stands at the front of the terminator's queue, `rest` behind it. -/
def Front (s : State) (c : Nat) (i : Item) (rest : List TermItem) : Prop :=
  s.wot.term = .item c (s.conn c).gen i :: rest ∧ (s.conn c).live = true

/-- Connection `c` has ended: its number is QUIET and its holder's responses are dead. -/
def Ended (s t : State) (c : Nat) : Prop := t.conn c = { state := .quiet, gen := (s.conn c).gen + 1 }

end Sys2Proof.Stmt

/-- PAD, PING, WINDOW and RESET items. Of a live connection, PAD and PING only leave the queue, WINDOW raises the response
window to its value, capped at 16,777,216, and never lowers it, changing nothing else while no lost octets wait to go again,
RESET sends the connection to QUIET at once with no frame. A WINDOW item of a connection that has ended leaves the queue
with no effect. -/
def Sys2Proof.Stmt.WotPlainItems : Prop :=
  (∀ (s : State) (c : Nat) (rest : List TermItem),
    (Front s c .pad rest → exec .pad s = .next { s with wot := { s.wot with term := rest } }) ∧
    (Front s c .ping rest → exec .ping s = .next { s with wot := { s.wot with term := rest } }) ∧
    (∀ v, Front s c (.window v) rest → (s.conn c).resend = [] → Runs .window s (fun t =>
      t.conn c = { s.conn c with rspWin := max (s.conn c).rspWin (min v 16777216) } ∧ t.wot.term = rest ∧
      (∀ e, e ≠ c → t.conn e = s.conn e) ∧
      t = { s with wot := { s.wot with term := rest, conns := t.wot.conns } })) ∧
    (∀ r d, Front s c (.reset r d) rest → Runs .reset s (fun t => Ended s t c ∧ (∀ e, e ≠ c → t.conn e = s.conn e) ∧
      t.net = s.net ∧ t.otp = s.otp ∧ t.tables = s.tables))) ∧
  (∀ (s : State) (c g v : Nat) (rest : List TermItem), g ≠ (s.conn c).gen → s.wot.term = .item c g (.window v) :: rest →
    exec .window s = .next { s with wot := { s.wot with term := rest } })

/-- REQ items on a connection that the client has not closed. Octets at or beyond the request limit end the connection. On
an open client connection, octets below it join the request stream, less those already received, and while the next message
is not whole nothing else changes; when they complete a client message whose tag is below 1,024 and free, with the gate
empty and no ABORT known, the message goes to the admission gate. That the tag is checked when the message joins the gate is
the model's reading (log 48). -/
def Sys2Proof.Stmt.WotRequest : Prop :=
  ∀ (s : State) (c off : Nat) (data : Octets) (rest : List TermItem), Front s c (.req off data) rest →
    (s.conn c).final = none →
    ((s.conn c).limit < off + data.length → Runs .req s (fun t => Ended s t c ∧ (∀ e, e ≠ c → t.conn e = s.conn e))) ∧
    (off + data.length ≤ (s.conn c).limit → (s.conn c).state = .open → (s.conn c).mgmt = false →
      (((s.conn c).place off data).msgAt (s.conn c).consumed = .short →
        Runs .req s (fun t => t.conn c = (s.conn c).place off data ∧ (∀ e, e ≠ c → t.conn e = s.conn e) ∧
          t = { s with wot := { s.wot with term := rest, conns := t.wot.conns } })) ∧
      (∀ o, ((s.conn c).place off data).msgAt (s.conn c).consumed = .whole o → beAt o 4 2 < 1024 →
        (s.conn c).tags.contains (beAt o 4 2) = false → s.wot.gate = [] → s.wot.aborts = [] →
        Runs .req s (fun t => t.conn c = (s.conn c).place off data ∧
          t.wot.gate = [{ conn := c, gen := (s.conn c).gen, mgmt := false, pos := (s.conn c).consumed, msg := o }] ∧
          (∀ e, e ≠ c → t.conn e = s.conn e) ∧
          t = { s with wot := { s.wot with term := rest, conns := t.wot.conns, gate := t.wot.gate,
                                           aborts := t.wot.aborts } })))

/-- PAD, PING, WINDOW, RESET and REQ items. `Stmt.WotPlainItems` and `Stmt.WotRequest` both hold. -/
def Obligations.WotItems : Prop := Stmt.WotPlainItems ∧ Stmt.WotRequest

/-- ACK and CLOSE items. An ACK that acknowledges no CLOSE and loses no frame, while nothing waits to go again, removes
exactly the frames it covers and ends the row of timeouts. A first CLOSE below the octets received ends the connection;
else, while a tag is outstanding and no message is whole, the connection is CLOSING with that FINAL. Which frame is sampled
is the model's reading (log 47). -/
def Sys2Proof.Stmt.WotAckAndClose : Prop :=
  (∀ (s : State) (c delay largest : Nat) (map : BitVec 64) (rest : List TermItem), Front s c (.ack delay largest map) rest →
    (∀ f, f ∈ (s.conn c).unacked → ackCovers largest map f.pn = true → f.items.any Item.isClose = false) →
    (∀ f, f ∈ (s.conn c).unacked → ackCovers largest map f.pn = false →
      ackAbove largest map (s.conn c).pnTx (f.pn + 3) = false) → (s.conn c).resend = [] →
    Runs .ack s (fun t =>
      (t.conn c).unacked = (s.conn c).unacked.filter (fun f => !ackCovers largest map f.pn) ∧
      (t.conn c).backoff = 0 ∧ (t.conn c).state = (s.conn c).state ∧ (t.conn c).tags = (s.conn c).tags ∧
      (s.conn c).cwnd ≤ (t.conn c).cwnd ∧ (∀ e, e ≠ c → t.conn e = s.conn e) ∧
      t = { s with wot := { s.wot with term := rest, conns := t.wot.conns } })) ∧
  (∀ (s : State) (c final : Nat) (rest : List TermItem), Front s c (.close final) rest → (s.conn c).final = none →
    (final < (s.conn c).high → Runs .close s (fun t => Ended s t c ∧ (∀ e, e ≠ c → t.conn e = s.conn e))) ∧
    ((s.conn c).high ≤ final → (s.conn c).tags ≠ [] → (s.conn c).msgAt (s.conn c).consumed = .short →
      Runs .close s (fun t => t.conn c = { s.conn c with final := some final, state := .closing } ∧
        (∀ e, e ≠ c → t.conn e = s.conn e) ∧
        t = { s with wot := { s.wot with term := rest, conns := t.wot.conns } })))

/-- INIT. A frame that does not verify, or has a field out of range, is dropped and counted. One that verifies for a valid
client credential, and repeats the credential and NC of no connection, opens the lowest free connection number in OPENING,
in a mode whose client class is open and with 512 octets in the limit pool: with the keys of R83 from a fresh random ND, the
credential, the path and the first limit. In a mode whose client class is not open no connection opens. -/
def Sys2Proof.Stmt.WotInit : Prop :=
  ∀ (s : State) (p : Path) (f : Octets) (rest : List TermItem), s.wot.term = .init p f :: rest →
    ((initOk f = false ∨ (s.cred (beAt f 12 2)).valid = false ∨
        (hmac256 (handshakeKey (s.cred (beAt f 12 2)).psk) (f.take 40)).take 16 ≠ f.drop 40) →
      Runs .init s (fun t => tabGet (fun _ => 0) t.wot.counters 2 = (tabGet (fun _ => 0) s.wot.counters 2 + 1) % 2 ^ 64 ∧
        t = { s with wot := { s.wot with term := rest, counters := t.wot.counters } })) ∧
    (initOk f = true → (s.cred (beAt f 12 2)).valid = true → (s.cred (beAt f 12 2)).mgmt = false →
      (hmac256 (handshakeKey (s.cred (beAt f 12 2)).psk) (f.take 40)).take 16 = f.drop 40 →
      (∀ e, e ∈ s.wot.conns → e.2.cred = beAt f 12 2 → e.2.nc ≠ slice f 16 16) →
      (s.mode.mode.clientOpen = 2 → 512 ≤ s.poolFree → ∀ c, s.freeConn = some c →
        Runs .init s (fun t => (t.conn c).state = .opening ∧ (t.conn c).cred = beAt f 12 2 ∧ (t.conn c).mgmt = false ∧
          (t.conn c).nc = slice f 16 16 ∧ (t.conn c).limit = firstLimit s.poolFree ∧
          (t.conn c).maxFrame = beAt f 14 2 ∧ (t.conn c).path = some p ∧
          (t.conn c).kcd = sessionKey (s.cred (beAt f 12 2)).psk (slice f 16 16) (s.random 16).1 "wot c2d" c ∧
          (t.conn c).kdc = sessionKey (s.cred (beAt f 12 2)).psk (slice f 16 16) (s.random 16).1 "wot d2c" c ∧
          t.draws = s.draws + 16 ∧ t.wot.term = rest ∧ ∀ e, e ≠ c → t.conn e = s.conn e)) ∧
      (s.mode.mode.clientOpen ≠ 2 → Runs .init s (fun t => t.wot.conns = s.wot.conns ∧ t.draws = s.draws ∧
        t.wot.term = rest)))

/-- ACK and CLOSE items and INIT frames. `Stmt.WotAckAndClose` and `Stmt.WotInit` both hold. -/
def Obligations.WotOpening : Prop := Stmt.WotAckAndClose ∧ Stmt.WotInit

/-- Timers of a connection. ACK_TIMER ends the debt of an ACK with one packet number. The first nine expiries of the
retransmission timer raise the count of timeouts and set the congestion window to 16,384; the tenth, and the idle timer, end
the connection with no frame and count it as lost, the tenth counting the unacknowledged frames as lost too. The expiry of
OPENING and the end of QUIET leave the number FREE. On a connection that is not live the first three do nothing. That a
command whose conditions do not hold changes nothing is the model's choice (log 1). That a timer may expire at any moment is
the model's choice (log 16). -/
def Sys2Proof.Stmt.WotTimers : Prop :=
  ∀ (s : State) (c : Nat), c < 65536 →
    ((s.conn c).live = true → (s.conn c).ackOwed ≠ 0 → (s.conn c).pnTx + 1 < 2 ^ 48 → ∀ p, (s.conn c).path = some p →
      Runs (.ackTimer c) s (fun t => t.conn c = { s.conn c with ackOwed := 0, pnTx := (s.conn c).pnTx + 1 } ∧
        (∀ e, e ≠ c → t.conn e = s.conn e) ∧
        t = { s with net := t.net, wot := { s.wot with conns := t.wot.conns } })) ∧
    ((s.conn c).live = true → (s.conn c).unacked ≠ [] →
      ((s.conn c).backoff < 9 → (s.conn c).pnTx + (s.conn c).unacked.length + (s.conn c).resend.length + 2 < 2 ^ 48 →
        Runs (.retxTimeout c) s (fun t => (t.conn c).backoff = (s.conn c).backoff + 1 ∧ (t.conn c).cwnd = 16384 ∧
          (t.conn c).state = (s.conn c).state ∧ (t.conn c).tags = (s.conn c).tags ∧ ∀ e, e ≠ c → t.conn e = s.conn e)) ∧
      (9 ≤ (s.conn c).backoff → Runs (.retxTimeout c) s (fun t => Ended s t c ∧ t.net = s.net ∧
        (∀ e, e ≠ c → t.conn e = s.conn e) ∧
        tabGet (fun _ => 0) t.wot.counters 8 = (tabGet (fun _ => 0) s.wot.counters 8 + (s.conn c).unacked.length) % 2 ^ 64 ∧
        tabGet (fun _ => 0) t.wot.counters 7 = (tabGet (fun _ => 0) s.wot.counters 7 + 1) % 2 ^ 64))) ∧
    ((s.conn c).live = true → Runs (.idleTimeout c) s (fun t => Ended s t c ∧ t.net = s.net ∧
      (∀ e, e ≠ c → t.conn e = s.conn e) ∧
      tabGet (fun _ => 0) t.wot.counters 7 = (tabGet (fun _ => 0) s.wot.counters 7 + 1) % 2 ^ 64)) ∧
    ((s.conn c).state = .opening →
      exec (.openingTimeout c) s = .next (s.modConn c (fun k => { gen := k.gen + 1 }))) ∧
    ((s.conn c).state = .quiet → exec (.quietEnd c) s = .next (s.modConn c (fun k => { gen := k.gen }))) ∧
    ((s.conn c).live = false → Idle (.ackTimer c) s ∧ Idle (.retxTimeout c) s ∧ Idle (.idleTimeout c) s)

/-- Limits and responses. LIMIT_RAISE grants the due connection the smaller of 65,536 octets and the largest multiple of
4,096 that the pool holds, and nothing while the pool holds fewer than 4,096. RESPONSE_SEND of an open connection's only
response, whose octets fit one frame and the windows, ends the response with the next RSN and frees its tag. That a command
whose conditions do not hold changes nothing is the model's choice (log 1). That the whole response leaves in one frame when
it fits is the model's choice (log 24). -/
def Sys2Proof.Stmt.WotLimitsAndResponses : Prop :=
  (∀ s : State, s.dueRaise = none → Idle .limitRaise s) ∧
  (∀ (s : State) (c : Nat), s.dueRaise = some c →
    (s.poolFree < 4096 → Idle .limitRaise s) ∧
    (4096 ≤ s.poolFree → ((s.conn c).state = .opening ∨ ((s.conn c).live = true ∧ (s.conn c).pnTx + 1 < 2 ^ 48)) →
      Runs .limitRaise s (fun t => (t.conn c).limit = (s.conn c).limit + min 65536 (s.poolFree / 4096 * 4096) ∧
        t.wot.lastRaise = c ∧ (∀ e, e ≠ c → t.conn e = s.conn e) ∧
        t = { s with net := t.net, wot := { s.wot with conns := t.wot.conns, lastRaise := c } }))) ∧
  (∀ (s : State) (c : Nat) (r : Rsp) (o : Octets) (p : Path), c < 65536 → r.tag < 65536 → (s.conn c).state = .open →
    (s.conn c).rsps = [r] → r.segs = [.octets o] → r.sent = 0 → r.rsn = none → r.after = none → r.counted = true →
    o ≠ [] → o.length + 46 ≤ (s.conn c).maxFrame → o.length + (s.conn c).inFlight ≤ (s.conn c).rspWin →
    o.length + (s.conn c).inFlight ≤ (s.conn c).cwnd → (s.conn c).path = some p →
    s.txRoom p.mac p.prio ((s.conn c).maxFrame + 100) = true → (s.conn c).pnTx + 1 < 2 ^ 48 → s.cmd? r.commit = none →
    Runs (.responseSend c r.tag) s (fun t => (t.conn c).rsps = [] ∧
      (t.conn c).tags = (s.conn c).tags.filter (fun g => g != r.tag) ∧ (t.conn c).lastRsn = (s.conn c).lastRsn + 1 ∧
      (t.conn c).state = .open ∧ t.wot.outstanding = s.wot.outstanding - 1 ∧
      (∀ e, e ≠ c → t.conn e = s.conn e) ∧
      t = { s with net := t.net, wot := { s.wot with conns := t.wot.conns, outstanding := t.wot.outstanding } }))

/-- WOT timers, limits and responses. `Stmt.WotTimers` and `Stmt.WotLimitsAndResponses` both hold. -/
def Obligations.WotTimersAndResponses : Prop := Stmt.WotTimers ∧ Stmt.WotLimitsAndResponses

/-- The admission gate. With one message at the gate that the mode and the sequencer let leave, the sequencer resumed, no
ABORT known and fewer than 1,048,576 messages outstanding: GATE_LEAVE of a management message that no whole message follows
gives it the next commit number, puts it last among the Transom requests and makes its tag outstanding; of a client message,
while no Transom request holds it back (log 105), it uses the next commit number. With no message that may leave nothing
happens. That a command whose conditions do not hold changes nothing is the model's choice (log 1). -/
def Sys2Proof.Stmt.GateLeaves : Prop :=
  (∀ s : State, (∀ m, m ∈ s.wot.gate → s.gateOpen m = false) → Idle .gateLeave s) ∧
  (∀ (s : State) (m : GateMsg), s.wot.gate = [m] → s.gateOpen m = true → s.wot.aborts = [] → s.wot.resumed = true →
    s.wot.outstanding < 1048576 →
    (m.mgmt = true → (((s.conn m.conn).consume (m.pos + m.msg.length)).msgAt (m.pos + m.msg.length) = .short) →
      (s.conn m.conn).final = none →
      Runs .gateLeave s (fun t => t.wot.lastCommit = s.wot.lastCommit + 1 ∧ t.wot.gate = [] ∧
        t.wot.outstanding = s.wot.outstanding + 1 ∧ beAt m.msg 4 2 ∈ (t.conn m.conn).tags ∧
        (t.conn m.conn).consumed = m.pos + m.msg.length ∧
        t.eng = { s.eng with treqs := s.eng.treqs ++
          [{ commit := s.wot.lastCommit + 1, conn := m.conn, gen := m.gen, tag := beAt m.msg 4 2, msg := m.msg }] } ∧
        (∀ e, e ≠ m.conn → t.conn e = s.conn e))) ∧
    (m.mgmt = false → s.reqHolds = false → Runs .gateLeave s (fun t => t.wot.lastCommit = s.wot.lastCommit + 1)))

/-- ABORT outcomes. The only whole ABORT message with no outcome gets NOTARGET when it names its own tag, or when the tag it
names is not outstanding and no earlier uncommitted message has it; NOTCAUGHT, with the commit number, when the only command
is its target. Nothing else changes: the target runs on. -/
def Sys2Proof.Stmt.AbortOutcomes : Prop :=
  ∀ (s : State) (a : AbortRec) (o : Octets), s.wot.aborts = [a] → a.outcome = 3 →
    (s.conn a.conn).msgAt a.pos = .whole o →
    (msgP0 o % 65536 = beAt o 4 2 → exec .abort s = .next { s with
      wot := { s.wot with aborts := [{ a with outcome := 0, target := 0 }] } }) ∧
    (msgP0 o % 65536 ≠ beAt o 4 2 → (s.conn a.conn).tags.contains (msgP0 o % 65536) = true →
      ∀ q, s.eng.cmds = [q] → q.conn = a.conn → q.gen = a.gen → q.tag = msgP0 o % 65536 → q.origin = none →
      exec .abort s = .next { s with
        wot := { s.wot with aborts := [{ a with outcome := 2, target := q.commit }] } }) ∧
    (msgP0 o % 65536 ≠ beAt o 4 2 → (s.conn a.conn).tags.contains (msgP0 o % 65536) = false →
      (∀ m, m ∈ (s.conn a.conn).uncommitted → m.1 < a.pos → beAt m.2 4 2 ≠ msgP0 o % 65536) → exec .abort s = .next { s with
        wot := { s.wot with aborts := [{ a with outcome := 0, target := 0 }] } })

/-- The admission gate and ABORT outcomes. `Stmt.GateLeaves` and `Stmt.AbortOutcomes` both hold. -/
def Obligations.GateAndAborts : Prop := Stmt.GateLeaves ∧ Stmt.AbortOutcomes

/-! ## Nirm instruction words -/

/-- Every Nirm instruction word decodes to the instruction it encodes. For every instruction of Table 6-6 and all field
values it admits, the encoded word decodes to that instruction and its fields read back; and every word that decodes to an
instruction has admissible fields and is that instruction's encoding, so no two instructions share a word. -/
def Obligations.NirmEncodingRoundTrip : Prop :=
  (∀ (o : Op) (f : OpFields), o.admits f = true → opOf (encodeOp o f) = some o ∧ fieldsOf (encodeOp o f) = f) ∧
  (∀ (w : W32) (o : Op), opOf w = some o → o.admits (fieldsOf w) = true ∧ encodeOp o (fieldsOf w) = w)

/-! ## Commands -/

namespace Sys2Proof.Stmt

/-- Command c, of this package's own clients, is next at its engine and starts image `op` in context `k`: the context is free,
its engine in service, the mode serves; its connection is open, no other replica holds its bucket, nothing waits under its
commit number. -/
structure Startable (s : State) (c : Cmd) (op k : Nat) : Prop where
  commit : c.commit < 2 ^ 64
  ctx : k < 8
  found : s.cmd? c.commit = some c
  image : c.image = some (.factory op)
  next : s.nextFor c.engine = some c
  free : s.inv (.eng c.engine k) = none
  engine : enginePlace c.engine ∉ s.masked
  serves : s.mode.mode.serving = true
  own : c.origin = none
  gen : (s.conn c.conn).gen = c.gen
  open_ : (s.conn c.conn).state = .open
  alone : c.hasStem = true → s.otherReplicas (bucketOf c.stemHash) = []
  waits : ∀ w, w ∈ s.fab.waits → w.commit ≠ c.commit

/-- Context `k` of its engine runs image `op` for command c, of this package's own clients, with invocation v, which waits for
`w`; its connection is open, no other replica holds its bucket, nothing waits under its commit number. -/
structure Paused (s : State) (c : Cmd) (op k : Nat) (v : Inv) (w : Why) : Prop where
  place : Wf.ctxId (.eng c.engine k) = true
  found : s.cmd? c.commit = some c
  inv : s.inv (.eng c.engine k) = some v
  wait : v.wait = .factory w
  image : v.image = .factory op
  commit : v.commit = c.commit
  own : c.origin = none
  gen : (s.conn c.conn).gen = c.gen
  open_ : (s.conn c.conn).state = .open
  alone : c.hasStem = true → s.otherReplicas (bucketOf c.stemHash) = []
  waits : ∀ w, w ∈ s.fab.waits → w.commit ≠ c.commit

/-- Context `k` has started image `op` for command c, and waits for `w`; the connections and the store dies stand. -/
def WaitsOn (s t : State) (c : Cmd) (op k : Nat) (w : Why) : Prop :=
  (∃ v, t.inv (.eng c.engine k) = some v ∧ v.wait = .factory w ∧ v.image = .factory op ∧ v.commit = c.commit) ∧
  t.cmd? c.commit = some { c with phase := .running (.eng c.engine k) } ∧ t.wot = s.wot ∧ t.dies = s.dies

/-- The response of command c stands on its connection as `segs`, and context `k` is free again. -/
def Answered (s t : State) (c : Cmd) (k : Nat) (segs : List Seg) : Prop :=
  (t.conn c.conn).rsps = (s.conn c.conn).rsps ++ [{ tag := c.tag, commit := c.commit, segs := segs, after := c.after }] ∧
  t.inv (.eng c.engine k) = none

/-- Command c has ended with the response `segs`, which waits for the allocator to apply its changes. -/
def Held (t : State) (c : Cmd) (k : Nat) (segs : List Seg) : Prop :=
  (∃ e l, t.cmd? c.commit = some { c with phase := .holding, rsp := segs, holdAlloc := true, holdErase := e, large := l }) ∧
  t.inv (.eng c.engine k) = none

end Sys2Proof.Stmt

/-- GET, GETSEL, SCAN and STAT. With a budget that covers FINDKEY, GET of a live key and an offset inside its value answers
OK with VERSION, LENGTH, OFFSET and USERMETA and the range asked for; of an absent key NOTFOUND; with a smaller budget it
ends with BUDGET. GETSEL waits for its search; once that is resolved on a table with no damaged row, it answers the
confirmed match at RANK with its key, priority and range. SCAN whose response fits 4,096 octets answers the live keys above
the resume key, at most the smaller of MAXENT and 2,048, with MORE when keys remain. STAT of SEL 0 answers the counters of
its namespace. That a default image runs as one step is the model's choice (log 12). -/
def Sys2Proof.Stmt.DefaultReads : Prop :=
  ∀ (s : State) (c : Cmd) (k : Nat),
    (Startable s c 0x01 k → c.keyed (c.badForm true) = none →
      (c.entry.budget < s.findCost c → Runs (.get c.commit k) s (fun t =>
        ∃ d0, Answered s t c k (c.built 0x0020 d0))) ∧
      (s.findCost c ≤ c.entry.budget → s.find c = .ok none →
        Runs (.get c.commit k) s (fun t => Answered s t c k [.octets (c.head 0x0001 {})])) ∧
      (∀ e, s.findCost c ≤ c.entry.budget → s.find c = .ok (some e) → e.live = true → c.p0 ≤ e.length →
        Runs (.get c.commit k) s (fun t => Answered s t c k
          (.octets (c.head 0 { version := e.version, length := e.length, offset := c.p0, usermeta := e.usermeta.toNat }) ::
            rangeSeg c.die e c.p0 (rangeLen c.flag0 e.length c.p0 c.p1)) ∧ t.otp = s.otp ∧ t.tables = s.tables))) ∧
    (Startable s c 0x02 k → c.keyed (c.badForm true) = none →
      Runs (.getsel c.commit k) s (fun t => WaitsOn s t c 0x02 k .search)) ∧
    (∀ v, Paused s c 0x02 k v .search → c.keyed (c.badForm true) = none → s.searchReady = true → s.sel.damaged = [] →
      ∀ l prio e, s.confirmed c (c.p3 % 65536 + 2) (s.sel.matching c.stemHash (w64 c.p0)) = .ok l →
        matchCost * s.examined c (c.p3 % 65536 + 2) (s.sel.matching c.stemHash (w64 c.p0)) ≤ c.entry.budget →
        l[c.p3 % 65536]? = some (prio, e) → c.p1 ≤ e.length →
        Runs (.selSearchResult (.eng c.engine k) []) s (fun t => ∃ f, f.version = e.version ∧ f.length = e.length ∧ f.offset = c.p1 ∧
          f.d0 = e.key.length + prio * 256 ∧ f.d1 = c.p3 % 65536 ∧
          Answered s t c k (.octets (c.head 0 f) :: .octets e.key ::
            rangeSeg c.die e c.p1 (rangeLen c.flag0 e.length c.p1 c.p2)))) ∧
    (Startable s c 0x10 k → c.badForm false = false → c.dataLen ≤ 255 → 0 < c.p0 % 8192 → c.p0 % 8192 ≤ 4096 →
      c.nsBad = false → s.succReady c.commit c.nsid = true →
      ∀ keys, keys = s.liveKeys c.nsid (fun x => startsWith c.key x && decide (octetsCmp (msgData c.msg) x < 0)) →
        64 + ((keys.take (min (c.p0 % 8192) 2048)).flatMap scanEntry).length ≤ 4096 →
        Runs (.scan c.commit k) s (fun t => Answered s t c k
          [.octets (c.head 0 { rflags := bit01 (decide (min (c.p0 % 8192) 2048 < keys.length)),
                               d0 := min (min (c.p0 % 8192) 2048) keys.length }),
           .octets ((keys.take (min (c.p0 % 8192) 2048)).flatMap scanEntry)])) ∧
    (Startable s c 0x14 k → c.badForm true = false → c.noKeyData = true → c.p0 % 256 = 0 → c.nsBad = false →
      Runs (.stat c.commit k) s (fun t => Answered s t c k [.octets (c.head 0 {}), .octets (s.statBody c)]))

/-- FLUSH, FENCE and the ABORT reply. FLUSH answers OK when no earlier write it covers is off the media, and waits
otherwise. FENCE answers OK when every earlier command of its scope has ended, and marks its command. The ABORT reply gives
octets 20 to 27 and 28 to 35 of the command record, the outcome and the target's commit number, and names the response it
follows. That a default image runs as one step is the model's choice (log 12). -/
def Sys2Proof.Stmt.DefaultFences : Prop :=
  ∀ (s : State) (c : Cmd) (k : Nat),
    (Startable s c 0x11 k → c.badForm true = false → c.noKeyData = true → (c.flag0 = true ∨ c.nsBad = false) →
      (s.unflushed c.commit (fun n => c.flag0 || decide (n = c.nsid)) = false →
        Runs (.flush c.commit k) s (fun t => Answered s t c k [.octets (c.head 0 {})])) ∧
      (s.unflushed c.commit (fun n => c.flag0 || decide (n = c.nsid)) = true →
        Runs (.flush c.commit k) s (fun t => WaitsOn s t c 0x11 k .fence))) ∧
    (Startable s c 0x12 k → c.badForm true = false → c.noKeyData = true → s.fenceMet c c.flag0 = true →
      Runs (.fence c.commit k) s (fun t => Answered s t c k [.octets (c.head 0 {})] ∧
        ∀ d, t.cmd? c.commit = some d → d.fenced = true)) ∧
    (Startable s c 0x13 k → c.badForm true = false → c.noKeyData = true →
      Runs (.abortReply c.commit k) s (fun t => Answered s t c k [.octets (c.head 0 { d0 := c.p1, d1 := c.p2 })]))

/-- Default commands that change no object. `Stmt.DefaultReads` and `Stmt.DefaultFences` both hold. -/
def Obligations.DefaultReadsAndFences : Prop := Stmt.DefaultReads ∧ Stmt.DefaultFences

/-- PUT, DELETE and SDISCARD, each with room in the home die's effect log for its change and a budget that covers the
instructions it executes (PUT) or FINDKEY (the others). A PUT whose DATA stands in both saggar copies creates an absent
key's object, where the ledger has room, or replaces the object, with the command's commit number as VERSION; COND that
EXPECT does not meet answers with the VERSION found; a PUT whose budget ends before its write ends with BUDGET there. A
DELETE ends the live object and holds its response for the allocator; of an absent key it answers NOTFOUND. An SDISCARD of
an absent key with nothing to erase answers OK. That a default image runs as one step is the model's choice (log 12). What
counts as a full log is the model's choice (log 26). -/
def Sys2Proof.Stmt.DefaultWrites : Prop :=
  ∀ (s : State) (c : Cmd) (k : Nat),
    (Startable s c 0x03 k → c.keyed (c.badForm false) = none → c.dataLen ≤ 262144 → c.placedOk = true →
      (∀ p, s.putCut c = some p →
        Runs (.put c.commit k) s (fun t => Answered s t c k (c.built 0x0020 (faultDetail 0 p.1 p.2)))) ∧
      (s.findCost c ≤ c.entry.budget → s.putCut c = none → s.putCutAfter c ([45, 46] ++ span 47 56) = none →
        s.find c = .ok none → (c.flag0 = false ∨ c.p0 = 0) → (s.die c.die).ledger.appliedBelow c.commit = true →
        s.hasRoom c.die (c.region % 4) (s.die c.die) false false c.dataLen = true → (s.die c.die).logFull = false →
        Runs (.put c.commit k) s (fun t =>
          Answered s t c k [.octets (c.head 0 { version := c.commit, length := c.dataLen, usermeta := c.p1 })] ∧
          ∃ h e, (t.die c.die).liveBy h = some e ∧ e.key = c.key ∧ e.nsid = c.nsid ∧ e.keyHash = c.keyHash ∧
            e.version = c.commit ∧ e.length = c.dataLen)) ∧
      (∀ e, s.findCost c ≤ c.entry.budget → s.putCut c = none → s.putCutAfter c (40 :: span 47 56) = none →
        s.find c = .ok (some e) → (s.die c.die).byHandle e.handle = some e → (c.flag0 = false ∨ c.p0 = versionOf (some e)) →
        (s.die c.die).logFull = false →
        Runs (.put c.commit k) s (fun t =>
          Answered s t c k [.octets (c.head 0 { version := c.commit, length := c.dataLen, usermeta := c.p1 })] ∧
          ∃ e', (t.die c.die).liveBy e.handle = some e' ∧ e'.key = e.key ∧ e'.version = c.commit ∧ e'.length = c.dataLen)) ∧
      (∀ e, s.findCost c ≤ c.entry.budget → s.putCut c = none → s.find c = .ok e → c.flag0 = true → c.p0 ≠ versionOf e →
        Runs (.put c.commit k) s (fun t => Answered s t c k [.octets (c.head 0x0002 { d0 := versionOf e })]))) ∧
    (Startable s c 0x04 k → c.keyed (c.badForm true) = none → s.findCost c ≤ c.entry.budget →
      (s.find c = .ok none → (c.flag0 = false ∨ c.p0 = 0) →
        Runs (.delete c.commit k) s (fun t => Answered s t c k [.octets (c.head 0x0001 {})])) ∧
      (∀ e, s.find c = .ok (some e) → e.live = true → (s.die c.die).byHandle e.handle = some e →
        (c.flag0 = false ∨ c.p0 = e.version) → (s.die c.die).logFull = false →
        Runs (.delete c.commit k) s (fun t => Held t c k [.octets (c.head 0 { version := e.version, length := e.length })] ∧
          (t.die c.die).liveBy e.handle = none))) ∧
    (Startable s c 0x05 k → c.keyed (c.badForm true) = none → s.findCost c ≤ c.entry.budget → s.find c = .ok none →
      (c.flag0 = false ∨ c.p0 = 0) → ∀ u, u = s.modDie c.die (fun d => d.markPurge s.geo (c.region % 4) c.commit c.keyHash) →
      (u.die c.die).purging c.commit = false → u.find c = .ok none → u.findCost c ≤ c.entry.budget →
      Runs (.sdiscard c.commit k) s (fun t => Answered s t c k [.octets (c.head 0 {})]))

/-- Pending puts and selection entries by command. MPBEGIN with room creates the pending put of its commit number; MPPART
adds the chunks of its DATA; MPCOMMIT of a put with no chunk missing makes it the object's value; MPCANCEL ends it. SELPUT
of a live key reserves a row, or answers 2 for the row it already has; SELDEL of every entry answers the number of rows it
removes; both hold their response for the allocator. Each needs room in the home die's effect log and a budget that covers
FINDKEY, MPBEGIN a swept put serial, a SELPUT of a new row an allocator that runs. That a default image runs as one step is
the model's choice (log 12). What counts as a full log is the model's choice (log 26). -/
def Sys2Proof.Stmt.DefaultPutsAndSelection : Prop :=
  ∀ (s : State) (c : Cmd) (k : Nat),
    (Startable s c 0x08 k → c.keyed (c.badForm true) = none → c.p0 ≤ 2 ^ 40 → s.findCost c ≤ c.entry.budget →
      s.find c = .ok none → (s.die c.die).serialSwept = true →
      (s.die c.die).ledger.appliedBelow c.commit = true → s.hasRoom c.die (c.region % 4) (s.die c.die) true true c.p0 = true →
      (s.die c.die).logFull = false →
      Runs (.mpbegin c.commit k) s (fun t => Answered s t c k [.octets (c.head 0 { length := c.p0, d0 := c.commit })] ∧
        ∃ p, (t.die c.die).put? c.commit = some p ∧ p.length = c.p0 ∧ p.key = c.key ∧ p.nsid = c.nsid ∧ p.held = [])) ∧
    (∀ p, s.putNamed c = some p → p.putid = c.p0 → c.keyed (c.badForm true) = none → (s.die c.die).logFull = false →
      (Startable s c 0x0B k →
        Runs (.mpcancel c.commit k) s (fun t => Answered s t c k [.octets (c.head 0 {})] ∧
          (t.die c.die).put? c.p0 = none)) ∧
      (∀ e, Startable s c 0x0A k → s.findCost c ≤ c.entry.budget → s.find c = .ok (some e) → (s.die c.die).byHandle e.handle = some e →
        (c.flag0 = false ∨ c.p1 = versionOf (some e)) → p.missing = none →
        Runs (.mpcommit c.commit k) s (fun t =>
          Answered s t c k [.octets (c.head 0 { version := c.commit, length := p.length, usermeta := p.usermeta.toNat })] ∧
          (t.die c.die).put? c.p0 = none ∧
          ∃ e', (t.die c.die).liveBy e.handle = some e' ∧ e'.version = c.commit ∧ e'.length = p.length))) ∧
    (∀ p, Startable s c 0x09 k → s.putNamed c = some p → p.putid = c.p0 →
      c.keyed (c.badForm false || decide (c.p1 % 65536 ≠ 0) || decide (c.dataLen = 0)) = none → c.dataLen ≤ 262144 →
      partRange p c.p1 c.dataLen = false → c.placedOk = true → (s.die c.die).logFull = false →
      Runs (.mppart c.commit k) s (fun t =>
        (∃ n, Answered s t c k [.octets (c.head 0 { d0 := n })]) ∧
        ∃ q, (t.die c.die).put? c.p0 = some q ∧
          ∀ i, i < (msgData c.msg).length → c.p1 / 65536 + i / 65536 ∈ q.held)) ∧
    (∀ e, s.findCost c ≤ c.entry.budget → s.find c = .ok (some e) → e.live = true → c.keyed (c.badForm true) = none → (s.die c.die).logFull = false →
      (Startable s c 0x18 k →
        (∀ i, s.sel.same (w64 c.p0) c.stemHash e.handle = some i →
          Runs (.selput c.commit k) s (fun t => Held t c k [.octets (c.head 0 { version := e.version, d0 := 2 })])) ∧
        (∀ i, s.sel.same (w64 c.p0) c.stemHash e.handle = none → s.sel.appliedBelow c.commit = true → s.allocRuns = true →
          s.sel.place c.stemHash = some i →
          Runs (.selput c.commit k) s (fun t => Held t c k [.octets (c.head 0 { version := e.version, d0 := 1 })] ∧
            (i, c.commit) ∈ t.sel.reserved))) ∧
      (Startable s c 0x19 k → c.flag0 = true → s.sel.ofHandle c.stemHash e.handle ≠ [] →
        Runs (.seldel c.commit k) s (fun t =>
          Held t c k [.octets (c.head 0 { d0 := (s.sel.ofHandle c.stemHash e.handle).length })])))

/-- Default commands that change objects and selection entries. `Stmt.DefaultWrites` and `Stmt.DefaultPutsAndSelection` both
hold. -/
def Obligations.DefaultWritesAndPuts : Prop := Stmt.DefaultWrites ∧ Stmt.DefaultPutsAndSelection

/-- Before a handler starts. REQDATA_GRANT gives the one waiting command its octets beyond 512 while the area has room.
SAGGAR_COPY_DONE places a queued command's DATA in the home part and its mirror when the home part has room, the region its
hold-up reserve and both stacks work. NOHANDLER_COMMAND ends a command of an empty slot that may start with NOHANDLER.
OPERATOR_COMMAND starts the bound image in the state of Table 5-5, waiting for its first fetch. That the first fetch always
misses is the model's choice (log 13). -/
def Obligations.CommandAdmission : Prop :=
  (∀ (s : State) (d : Nat) (c : Cmd), d < 4 →
    s.eng.cmds.filter (fun q => decide (q.die = d) && decide (q.phase = .waitGrant)) = [c] →
    s.dataAreaUsed d + (c.msg.length - 512) ≤ 268435456 →
    exec (.reqdataGrant d) s = .next (s.modCmd c.commit (fun q => { q with granted := c.msg.length - 512, phase := .queued }))) ∧
  (∀ (s : State) (c : Cmd) (p : Placed) (ref : Nat), c.commit < 2 ^ 64 → s.cmd? c.commit = some c → c.data = some p →
    p.home = false → c.phase = .queued → (s.die p.die).online = true → (s.die p.die).stackLost = false →
    (s.die ((p.die + 1) % 4)).stackLost = false → (s.die p.die).reserveWhole s.geo (c.region % 4) = true →
    (s.die p.die).extentRef (extentUnits (slice (msgData c.msg) 0 c.dataLen).length) = some ref →
    Runs (.saggarCopyDone c.commit) s (fun t =>
      t.cmd? c.commit = some { c with data := some { p with ref := ref, home := true, mirror := true } } ∧
      (∃ x, x ∈ (t.die p.die).extents ∧ x.ref = ref ∧ x.owner = .command c.commit ∧
        x.value = slice (msgData c.msg) 0 c.dataLen) ∧ t.mode.drained = false ∧ t.wot = s.wot ∧ t.otp = s.otp)) ∧
  (∀ (s : State) (c : Cmd), c.commit < 2 ^ 64 → s.cmd? c.commit = some c → c.phase = .queued → c.entry.valid = false →
    s.mayStart c = true → c.origin = none → (s.conn c.conn).gen = c.gen → (s.conn c.conn).state = .open →
    (∀ w, w ∈ s.fab.waits → w.commit ≠ c.commit) →
    Runs (.nohandlerCommand c.commit) s (fun t =>
      (t.conn c.conn).rsps = (s.conn c.conn).rsps ++
        [{ tag := c.tag, commit := c.commit, after := c.after,
           segs := [.octets (rspHead 0x0011 c.opcode 0 c.tag c.commit 0 0 0 0 0 0)] }] ∧ t.eng.ctxs = s.eng.ctxs)) ∧
  (∀ (s : State) (c : Cmd) (ws : List W32) (k : Nat), c.commit < 2 ^ 64 → k < 8 → s.cmd? c.commit = some c →
    c.image = some (.words ws) → s.nextFor c.engine = some c → s.inv (.eng c.engine k) = none →
    enginePlace c.engine ∉ s.masked → s.mode.mode.serving = true →
    Runs (.operatorCommand c.commit k) s (fun t => ∃ v, t.inv (.eng c.engine k) = some v ∧ v.image = .words ws ∧
      v.pc = 0 ∧ v.charged = 0 ∧ v.budget = c.entry.budget ∧ v.status = 0 ∧ v.tag = c.tag ∧ v.conn = c.conn ∧
      v.commit = c.commit ∧ v.g 0 = (if c.hasStem then c.keyHash else 0) ∧ v.g 1 = (if c.hasStem then c.stemHash else 0) ∧
      v.g 2 = w64 c.msgLen ∧ (∀ n, 4 ≤ n → v.g n = 0) ∧ v.scratch = [] ∧ v.rsp = [] ∧ (∀ n, v.slot n = .idle) ∧
      v.wait = .icache ∧ t.cmd? c.commit = some { c with phase := .running (.eng c.engine k) } ∧
      t = { s with eng := { s.eng with ctxs := t.eng.ctxs, cmds := t.eng.cmds, icMiss := t.eng.icMiss } }))

/-! ## Nirm -/

namespace Sys2Proof.Stmt

/-- Context x stands on word w, which decodes to instruction o, with budget for it and waiting for nothing, and its engine's
rotation has come to it (R148). -/
structure NirmAt (s : State) (x : CtxId) (v : Inv) (w : W32) (o : Op) : Prop where
  ctx : Wf.ctxId x = true
  inv : s.inv x = some v
  word : v.word = some w
  op : opOf w = some o
  idle : v.wait = .none
  turn : s.turn x = true
  budget : v.charged + o.charge ≤ v.budget

/-- The invocation, with content u, after instruction o of `v`: it stands at `pc`, has been charged, and waits for `wt`. -/
def onward (v u : Inv) (o : Op) (pc : Nat) (wt : Wait) : Inv :=
  { u with pc := pc, waitPc := v.pc, waitCharge := v.charged, charged := v.charged + o.charge, wait := wt }

/-- Command i runs instruction o in context x: the next pc, content u, the state otherwise t, x last in the rotation. -/
def Steps (s : State) (x : CtxId) (v : Inv) (w : W32) (i : Instr) (o : Op) (t : State) (u : Inv) : Prop :=
  NirmAt s x v w o → v.pc + 1 < v.len →
    exec i s = .next ((t.setInv x (some (onward v u o (v.pc + 1) .none))).issueBy x)

/-- Command i runs instruction o in context x, which then waits for `wt`, a directory request in the order of its port. -/
def Waits (s : State) (x : CtxId) (v : Inv) (w : W32) (i : Instr) (o : Op) (t : State) (u : Inv) (wt : Wait) : Prop :=
  NirmAt s x v w o → v.pc + 1 < v.len →
    exec i s = .next ((t.park x (onward v u o (v.pc + 1) wt)).issueBy x)

/-- Command i writes r to g[rd] and, but for the pc, the charge and the rotation, nothing else of the handler or the package. -/
def Writes (s : State) (x : CtxId) (v : Inv) (w : W32) (i : Instr) (o : Op) (r : W64) : Prop :=
  Steps s x v w i o s (v.setG (wRd w) r)

/-- Command i transfers to `target` where `c` holds, else goes on; the content becomes u. -/
def Jumps (s : State) (x : CtxId) (v : Inv) (w : W32) (i : Instr) (o : Op) (u : Inv) (c : Prop) (target : Int) : Prop :=
  NirmAt s x v w o →
    (c → 0 ≤ target → target < v.len → 
      exec i s = .next ((s.setInv x (some (onward v u o target.toNat .none))).issueBy x)) ∧
    (¬ c → v.pc + 1 < v.len → exec i s = .next ((s.setInv x (some (onward v v o (v.pc + 1) .none))).issueBy x))

/-- imm16 and imm20 as signed offsets. -/
def simm16 (w : W32) : Int := (w.extractLsb' 0 16).toInt
def simm20 (w : W32) : Int := (w.extractLsb' 0 20).toInt

/-- The wait of an instruction that works on `n` octets of scratch from the block of off12. -/
def blockWait (w : W32) (n : Nat) : Wait := if 4096 < wFunc w * 16 + n then .spill else .none

/-- Octet `a` of an area. -/
def octetAt (m : Mem) (a : Nat) : Byte := tabGet (fun _ => 0#8) m a

/-- Octet j of a register, from the least significant. -/
def regOctet (r : W64) (j : Nat) : Byte := r.extractLsb' (8 * j) 8

end Sys2Proof.Stmt

/-- Opcode 0x10. Each ALU function writes its result of Table 6-7 to g[rd] and changes no other register, memory or state;
any other func value is no instruction. -/
def Obligations.NirmAluFunctions : Prop :=
  ∀ (s : State) (x : CtxId) (v : Inv) (w : W32) (a b : W64), a = v.g (wRa w) → b = v.g (wRb w) →
    Writes s x v w (.add x) (.alu 0) (a + b) ∧
    Writes s x v w (.sub x) (.alu 1) (a - b) ∧
    Writes s x v w (.and x) (.alu 2) (a &&& b) ∧
    Writes s x v w (.or x) (.alu 3) (a ||| b) ∧
    Writes s x v w (.xor x) (.alu 4) (a ^^^ b) ∧
    Writes s x v w (.shl x) (.alu 5) (a <<< (b.extractLsb' 0 6).toNat) ∧
    Writes s x v w (.shr x) (.alu 6) (a >>> (b.extractLsb' 0 6).toNat) ∧
    Writes s x v w (.sar x) (.alu 7) (a.sshiftRight (b.extractLsb' 0 6).toNat) ∧
    Writes s x v w (.mul x) (.alu 8) (a * b) ∧
    Writes s x v w (.divu x) (.alu 9) (if b = 0 then BitVec.allOnes 64 else BitVec.ofNat 64 (a.toNat / b.toNat)) ∧
    Writes s x v w (.remu x) (.alu 10) (if b = 0 then a else BitVec.ofNat 64 (a.toNat % b.toNat)) ∧
    (wOp w = 0x10 → (∀ f, f ≤ 10 → (opOf w = some (.alu f) ↔ wFunc w = f)) ∧ (10 < wFunc w → opOf w = none))

/-- Fields and immediates. EXT, DEP, the immediate forms, LI and LSH write g[rd] as R194 says and nothing else; an EXT or
DEP whose lsb + width exceeds 64, or whose rb field is not 0, and a shift with imm16[15:6] not 0, is no instruction. -/
def Obligations.NirmImmediates : Prop :=
  ∀ (s : State) (x : CtxId) (v : Inv) (w : W32) (a : W64) (lsb width : Nat), a = v.g (wRa w) →
    lsb = wFunc w % 64 → width = wFunc w / 64 + 1 →
    Writes s x v w (.ext x) .ext ((a.extractLsb' lsb width).setWidth 64) ∧
    (∃ r, Writes s x v w (.dep x) .dep r ∧ ∀ i, i < 64 →
      r.getLsbD i = (if lsb ≤ i ∧ i < lsb + width then a.getLsbD (i - lsb) else (v.g (wRd w)).getLsbD i)) ∧
    Writes s x v w (.addi x) .addi (a + (w.extractLsb' 0 16).signExtend 64) ∧
    Writes s x v w (.andi x) .andi (a &&& (w.extractLsb' 0 16).setWidth 64) ∧
    Writes s x v w (.ori x) .ori (a ||| (w.extractLsb' 0 16).setWidth 64) ∧
    Writes s x v w (.xori x) .xori (a ^^^ (w.extractLsb' 0 16).setWidth 64) ∧
    Writes s x v w (.shli x) .shli (a <<< (w.extractLsb' 0 6).toNat) ∧
    Writes s x v w (.shri x) .shri (a >>> (w.extractLsb' 0 6).toNat) ∧
    Writes s x v w (.sari x) .sari (a.sshiftRight (w.extractLsb' 0 6).toNat) ∧
    Writes s x v w (.li x) .li ((w.extractLsb' 0 20).signExtend 64) ∧
    Writes s x v w (.lsh x) .lsh ((v.g (wRd w) <<< 20) ||| (w.extractLsb' 0 20).setWidth 64) ∧
    ((wOp w = 0x11 ∨ wOp w = 0x12) → (64 < lsb + width ∨ wRb w ≠ 0) → opOf w = none) ∧
    ((wOp w = 0x1C ∨ wOp w = 0x1D ∨ wOp w = 0x1E) → w.extractLsb' 6 10 ≠ 0 → opOf w = none)

/-- Compare and branch. SET writes 1 or 0 by its condition; the six branches, BZ and BNZ transfer by imm16 when theirs holds
and else go on, changing no register; JMP transfers by imm20, JR to g[ra]; CALL also writes the link. BZ and BNZ with ra not
0, JMP with rd not 0, and JR with rd, rb or func not 0 are no instructions. -/
def Obligations.NirmCompareAndBranch : Prop :=
  ∀ (s : State) (x : CtxId) (v : Inv) (w : W32) (a b d : W64), a = v.g (wRa w) → b = v.g (wRb w) → d = v.g (wRd w) →
    Writes s x v w (.set x) (.set 0) (if a = b then 1 else 0) ∧
    Writes s x v w (.set x) (.set 1) (if a = b then 0 else 1) ∧
    Writes s x v w (.set x) (.set 2) (if a.toNat < b.toNat then 1 else 0) ∧
    Writes s x v w (.set x) (.set 3) (if b.toNat ≤ a.toNat then 1 else 0) ∧
    Writes s x v w (.set x) (.set 4) (if a.toInt < b.toInt then 1 else 0) ∧
    Writes s x v w (.set x) (.set 5) (if b.toInt ≤ a.toInt then 1 else 0) ∧
    Jumps s x v w (.beq x) (.branch 0) v (d = a) (v.pc + simm16 w) ∧
    Jumps s x v w (.bne x) (.branch 1) v (d ≠ a) (v.pc + simm16 w) ∧
    Jumps s x v w (.bltu x) (.branch 2) v (d.toNat < a.toNat) (v.pc + simm16 w) ∧
    Jumps s x v w (.bgeu x) (.branch 3) v (a.toNat ≤ d.toNat) (v.pc + simm16 w) ∧
    Jumps s x v w (.blt x) (.branch 4) v (d.toInt < a.toInt) (v.pc + simm16 w) ∧
    Jumps s x v w (.bge x) (.branch 5) v (a.toInt ≤ d.toInt) (v.pc + simm16 w) ∧
    Jumps s x v w (.bz x) .bz v (d = 0) (v.pc + simm16 w) ∧
    Jumps s x v w (.bnz x) .bnz v (d ≠ 0) (v.pc + simm16 w) ∧
    Jumps s x v w (.jmp x) .jmp v True (v.pc + simm20 w) ∧
    Jumps s x v w (.jr x) .jr v True a.toNat ∧
    Jumps s x v w (.call x) .call (v.setG (wRd w) (BitVec.ofNat 64 (v.pc + 1))) True (v.pc + simm20 w) ∧
    ((wOp w = 0x36 ∨ wOp w = 0x37) → wRa w ≠ 0 → opOf w = none) ∧
    (wOp w = 0x38 → wRd w ≠ 0 → opOf w = none) ∧
    (wOp w = 0x39 → wRd w ≠ 0 ∨ wRb w ≠ 0 ∨ wFunc w ≠ 0 → opOf w = none)

/-- Scratch loads and stores. An aligned access of 1, 2, 4 or 8 octets inside the 65,536 octets loads them little-endian
into g[rd], zero-extended, or stores g[rd] little-endian and leaves every other scratch octet, register and state as it was;
an access beyond octet 4,096 also waits for the spill part. -/
def Sys2Proof.Stmt.NirmScratch : Prop :=
  ∀ (s : State) (x : CtxId) (v : Inv) (w : W32) (k n a : Nat) (wt : Wait), n = 2 ^ k →
    a = (v.g (wRa w) + (w.extractLsb' 0 16).signExtend 64).toNat → a + n ≤ 65536 → a % n = 0 →
    wt = (if 4096 < a + n then .spill else .none) →
    (∀ i, (k = 0 ∧ i = .ld8 x) ∨ (k = 1 ∧ i = .ld16 x) ∨ (k = 2 ∧ i = .ld32 x) ∨ (k = 3 ∧ i = .ld64 x) →
      ∃ r, Waits s x v w i (.ld k) s (v.setG (wRd w) r) wt ∧
        (∀ j, j < n → regOctet r j = octetAt v.scratch (a + j)) ∧ (∀ b, 8 * n ≤ b → r.getLsbD b = false)) ∧
    (∀ i, (k = 0 ∧ i = .st8 x) ∨ (k = 1 ∧ i = .st16 x) ∨ (k = 2 ∧ i = .st32 x) ∨ (k = 3 ∧ i = .st64 x) →
      ∃ m, Waits s x v w i (.st k) s { v with scratch := m } wt ∧
        ∀ b, octetAt m b = (if a ≤ b ∧ b < a + n then regOctet (v.g (wRd w)) (b - a) else octetAt v.scratch b))

/-- Window loads and response stores. A window load inside the window reads message octets big-endian, those past MSGLEN as
0, into g[rd], and waits for the request-data area beyond octet 512; a response store inside the 256 octets writes g[rd]
big-endian and leaves every other octet, register and state as it was. -/
def Sys2Proof.Stmt.NirmWindowAndResponse : Prop :=
  ∀ (s : State) (x : CtxId) (v : Inv) (w : W32) (k n a : Nat), n = 2 ^ k →
    a = (v.g (wRa w) + (w.extractLsb' 0 16).signExtend 64).toNat →
    (a + n ≤ v.winEnd →
      ∀ i, (k = 0 ∧ i = .wl8 x) ∨ (k = 1 ∧ i = .wl16 x) ∨ (k = 2 ∧ i = .wl32 x) ∨ (k = 3 ∧ i = .wl64 x) →
      ∃ r, Waits s x v w i (.wl k) s (v.setG (wRd w) r) (if 512 < a + n then .window else .none) ∧
        (∀ j, j < n → regOctet r (n - 1 - j) = (if a + j < v.msgLen then v.msg.getD (a + j) 0 else 0)) ∧
        (∀ b, 8 * n ≤ b → r.getLsbD b = false)) ∧
    (a + n ≤ 256 →
      ∀ i, (k = 0 ∧ i = .rs8 x) ∨ (k = 1 ∧ i = .rs16 x) ∨ (k = 2 ∧ i = .rs32 x) ∨ (k = 3 ∧ i = .rs64 x) →
      ∃ m, Steps s x v w i (.rs k) s { v with rsp := m } ∧
        ∀ b, octetAt m b = (if a ≤ b ∧ b < a + n then regOctet (v.g (wRd w)) (n - 1 - (b - a)) else octetAt v.rsp b))

/-- Nirm loads and stores. `Stmt.NirmScratch` and `Stmt.NirmWindowAndResponse` both hold. -/
def Obligations.NirmScratchAndWindow : Prop := Stmt.NirmScratch ∧ Stmt.NirmWindowAndResponse

/-- Strings. KEYCMP writes 1, 2 or 0 by the key order of its strings, or 1 or 0 by whether the second begins with the first;
KEYCPY copies a string and writes its length; CRC continues a CRC-32C from g[rd]; HKEY writes the keyed hash of a namespace
and a string. An access that leaves the context's own octets waits. No other register or state changes. -/
def Obligations.NirmStrings : Prop :=
  ∀ (s : State) (x : CtxId) (v : Inv) (w : W32) (a : StrDesc), strDesc (v.g (wRa w)) = some a → v.strReach a = none →
    (∀ b, strDesc (v.g (wRb w)) = some b → v.strReach b = none → a.len ≤ 512 →
      (b.len ≤ 512 →
        Waits s x v w (.keycmpOrder x) (.keycmp 0) s
          (v.setG (wRd w) (if octetsCmp (v.str a) (v.str b) < 0 then 1 else if octetsCmp (v.str b) (v.str a) < 0 then 2 else 0))
          (orWait (strWait a) (strWait b)) ∧
        Waits s x v w (.keycmpPrefix x) (.keycmp 1) s
          (v.setG (wRd w) (if v.str a <+: v.str b then 1 else 0)) (orWait (strWait a) (strWait b))) ∧
      (a.len ≤ b.len → b.space = 1 → ∃ m,
        Waits s x v w (.keycpy x) .keycpy s ({ v with scratch := m }.setG (wRd w) (BitVec.ofNat 64 a.len))
          (orWait (strWait a) (strWait b)) ∧
        ∀ j, octetAt m j = (if b.off ≤ j ∧ j < b.off + a.len then (v.str a).getD (j - b.off) 0 else octetAt v.scratch j)) ∧
      (a.len ≤ b.len → b.space = 2 → ∃ m,
        Waits s x v w (.keycpy x) .keycpy s ({ v with rsp := m }.setG (wRd w) (BitVec.ofNat 64 a.len))
          (orWait (strWait a) (strWait b)) ∧
        ∀ j, octetAt m j = (if b.off ≤ j ∧ j < b.off + a.len then (v.str a).getD (j - b.off) 0 else octetAt v.rsp j))) ∧
    (a.len ≤ 4096 → Waits s x v w (.crc x) .crc s
      (v.setG (wRd w) ((crc32cFrom ((v.g (wRd w)).setWidth 32) (v.str a)).setWidth 64)) (strWait a)) ∧
    (a.len ≤ 512 → (v.g (wRb w)).toNat < 4096 → Waits s x v w (.hkey x) .hkey s
      (v.setG (wRd w) (sipHash24 s.hkeyOctets (beOctets 2 (v.g (wRb w)).toNat ++ v.str a))) (strWait a))

/-- Directory instructions. On a request engine, with the fields that R202 asks, DLOOK issues its search and waits, in mode
SUCC in class SPAN and of the command's own namespace; in class OWRITE, DINS and DUPD of an empty value and DDEL, each of
the command's own key, issue their operation and wait; the registers stay. In another class DINS, DUPD and DDEL end the
command with HFAULT CLASS. -/
def Sys2Proof.Stmt.NirmDirectory : Prop :=
  ∀ (s : State) (e c : Nat) (v : Inv) (w : W32) (x : CtxId), x = .eng e c →
    (queryOk (v.g (wRb w)) = true →
      (queryMode (v.g (wRb w)) = 0 → wFunc w * 16 + 64 ≤ 65536 →
        Waits s x v w (.dlookHash x) .dlook s v
          (.lookup (wRd w) (v.g (wRa w)) (queryNs (v.g (wRb w))) (queryK (v.g (wRb w))) (wFunc w * 16))) ∧
      (queryMode (v.g (wRb w)) = 2 → wFunc w * 16 + 336 ≤ 65536 →
        Waits s x v w (.dlookPend x) .dlook s v (.putRec (wRd w) (v.g (wRa w)).toNat (wFunc w * 16))) ∧
      (∀ a, queryMode (v.g (wRb w)) = 1 → wFunc w * 16 + 336 ≤ 65536 → v.cls = 4 → queryNs (v.g (wRb w)) = v.nsid →
        strDesc (v.g (wRa w)) = some a → v.strReach a = none →
        Waits s x v w (.dlookSucc x) .dlook s v
          (.succ (wRd w) (queryNs (v.g (wRb w))) (v.str a) (wFunc w * 16)))) ∧
    (v.cls = 1 → wFunc w * 16 + 64 ≤ 65536 →
      (w64 (v.blockWord w 0) = v.g 0 → blkNsid (v.blockWord w 1) = v.nsid → v.g (wRb w) = 3 →
        blkKeyLen (v.blockWord w 5) = (v.g 3).toNat % 256 → blkLength (v.blockWord w 1) = 0 →
        Waits s x v w (.dins x) .dins s v (.ins (wRd w) 3 (v.scr (wFunc w * 16) 64) none)) ∧
      (ownEntry v ((s.dieOf x v).byHandle (regHandle (v.g (wRa w)))) = true → v.g (wRb w) = 3 →
        blkLength (v.blockWord w 1) = 0 →
        Waits s x v w (.dupd x) .dupd s v (.upd (wRd w) (regHandle (v.g (wRa w))) 3 (v.scr (wFunc w * 16) 64))) ∧
      (ownEntry v ((s.dieOf x v).byHandle (regHandle (v.g (wRa w)))) = true →
        Waits s x v w (.ddel x) .ddel s v (.del (wRd w) (regHandle (v.g (wRa w)))))) ∧
    (v.cls ≠ 1 → wFunc w * 16 + 64 ≤ 65536 →
      (NirmAt s x v w .dins → exec (.dins x) s = .next ((s.invFault x v 0x0003 v.pc v.charged).issueBy x)) ∧
      (NirmAt s x v w .dupd → exec (.dupd x) s = .next ((s.invFault x v 0x0003 v.pc v.charged).issueBy x)) ∧
      (NirmAt s x v w .ddel → exec (.ddel x) s = .next ((s.invFault x v 0x0003 v.pc v.charged).issueBy x)))

/-- Selection instructions on a request engine. SEL and SELNEXT with an accepted cursor issue a search and wait. In class
SWRITE, with the command's stem in the block: SADD of a handle with no live object answers 3, of an entry that exists stages
its priority and answers 2, of a new one waits for the allocator; SDEL of every entry stages the removal of the handle's
rows of the stem and answers their number. A block in the spill part is waited for. -/
def Sys2Proof.Stmt.NirmSelection : Prop :=
  ∀ (s : State) (e c : Nat) (v : Inv) (w : W32) (x : CtxId), x = .eng e c →
    (wFunc w * 16 + 16 ≤ 65536 →
      Waits s x v w (.sel x) .sel s v (.sel (wRd w) (v.g (wRa w)) (v.g (wRb w)) (wFunc w * 16)) ∧
      (cursorOk (s.viewOf v).sel v (v.g (wRa w)) (v.g (wRb w)) (w64 (v.blockWord w 1)) = true →
        Waits s x v w (.selnext x) .selnext s v (.selNext (wRd w) (v.g (wRa w)) (v.g (wRb w)) (w64 (v.blockWord w 1))
          ((v.blockWord w 0).testBit 48) (wFunc w * 16)))) ∧
    (wFunc w * 16 + 32 ≤ 65536 → v.cls = 3 → w64 (v.blockWord w 1) = v.g 1 →
      ∀ h, h = w32 (v.blockWord w 2 % 2 ^ 32) →
      ((s.dieOf x v).liveBy h = none → 
        Waits s x v w (.sadd x) .sadd s (v.setG (wRd w) 3) (blockWait w 32)) ∧
      (∀ d i, (s.dieOf x v).liveBy h = some d → (s.viewOf v).sel.same (w64 (v.blockWord w 0)) (v.g 1) h = some i →
        Waits s x v w (.sadd x) .sadd s ({ v with
          log := v.log.filter (fun q => decide (q.2.stem ≠ v.g 1)),
          staged := v.staged ++ [Staged.row i (w64 (v.blockWord w 0)) (v.g 1) (v.blockWord w 2 / 2 ^ 32 % 2 ^ 16) h false] }.setG (wRd w) 2)
          (blockWait w 32)) ∧
      (∀ d, (s.dieOf x v).liveBy h = some d → (s.viewOf v).sel.same (w64 (v.blockWord w 0)) (v.g 1) h = none →
        Waits s x v w (.sadd x) .sadd s v
          (.sadd (wRd w) (w64 (v.blockWord w 0)) (v.g 1) (v.blockWord w 2 / 2 ^ 32 % 2 ^ 16) h)) ∧
      (∀ rows, v.g (wRb w) = 1 → rows = (s.viewOf v).sel.ofHandle (v.g 1) h → rows ≠ [] →
        Waits s x v w (.sdel x) .sdel s ({ v with
          log := v.log.filter (fun q => decide (q.2.stem ≠ v.g 1)),
          staged := v.staged ++ rows.map Staged.rowDel }.setG (wRd w) (w64 rows.length)) (blockWait w 32)))

/-- Nirm directory and selection instructions. `Stmt.NirmDirectory` and `Stmt.NirmSelection` both hold. -/
def Obligations.NirmDirectoryAndSelection : Prop := Stmt.NirmDirectory ∧ Stmt.NirmSelection

/-- Media instructions on a request engine, with an idle slot and the descriptor that R211 to R214 ask. Each puts its
operation in the slot and goes on; registers and scratch stay. A read wants the flash dies of its chunks at once. In class
OWRITE, MWRITE STAGED adds its octets to the staged value, MWRITE PART and MDISC stage their change, MSDISC marks its
targets; a base or a pending put that does not exist gives result 3, a part outside the put 4. MSDISC with its slot busy
ends the command with HFAULT SLOT. -/
def Sys2Proof.Stmt.NirmMedia : Prop :=
  ∀ (s : State) (e c : Nat) (v : Inv) (w : W32) (x : CtxId) (d : W64), x = .eng e c → d = v.g (wRb w) →
    (v.slot (wRd w) = .idle →
      (∀ op, (op = .value (regHandle (v.g (wRa w))) (mdChunk d) (mdCoff d) (mdClen d) (wFunc w * 16) →
          mdZero d = true → mdKind d = 0 → mdClen d ≠ 0 → mdCoff d + mdClen d ≤ 65536 → wFunc w * 16 + mdClen d ≤ 65536 →
          Steps s x v w (.mreadValue x) .mread (s.modDie (e / 128) (fun k => k.wakeFlash (k.opReads op)))
            (v.setSlot (wRd w) (.busy op v.staged.length))) ∧
        (op = .keyrec (regHandle (v.g (wRa w))) (wFunc w * 16) → d = 1 <<< 57 → wFunc w * 16 + 272 ≤ 65536 →
          Steps s x v w (.mreadKeyrec x) .mread (s.modDie (e / 128) (fun k => k.wakeFlash (k.opReads op)))
            (v.setSlot (wRd w) (.busy op v.staged.length))) ∧
        (op = .fill (regHandle (v.g (wRa w))) → d = 2 <<< 57 → wFunc w = 0 →
          Steps s x v w (.mreadFill x) .mread (s.modDie (e / 128) (fun k => k.wakeFlash (k.opReads op)))
            (v.setSlot (wRd w) (.busy op v.staged.length)))) ∧
      (v.cls = 1 →
        (∀ base off data, base = regBase (v.g (wRa w)) → off = mdChunk d * 65536 + mdCoff d →
          data = v.scr (wFunc w * 16) (mdClen d) → mdZero d = true → mdKind d = 0 → mdClen d ≠ 0 →
          mdCoff d + mdClen d ≤ 65536 → wFunc w * 16 + mdClen d ≤ 65536 → off + mdClen d ≤ 2 ^ 40 →
          (v.stagedBase = none ∨ v.stagedBase = some base) →
          ((base = noHandle ∨ (s.dieOf x v).liveBy base ≠ none) →
            Steps s x v w (.mwriteStaged x) .mwrite s
              ({ v with stagedBase := some base, stagedVal := v.stagedVal ++ [(off, data)] }.setSlot (wRd w)
                (.busy (.staged base off data 0) v.staged.length))) ∧
          (base ≠ noHandle → (s.dieOf x v).liveBy base = none →
            Steps s x v w (.mwriteStaged x) .mwrite s
              ({ v with stagedBase := some base }.setSlot (wRd w) (.busy (.staged base off data 3) v.staged.length)))) ∧
        (∀ p chunk, (s.dieOf x v).put? (v.g (wRa w)).toNat = some p → p.keyHash = v.g 0 → p.nsid = v.nsid →
          chunk = mdChunk d →
          (mdPlain d 1 = true → wFunc w = 0 → v.dsag = true →
            (partRange p (chunk * 65536) (v.msgLen - 40 - msgKeyLen v.msg) = false →
              Steps s x v w (.mwritePart x) .mwrite s ({ v with staged := v.staged ++ [Staged.part p.putid chunk] }.setSlot (wRd w)
                (.busy (.part (v.g (wRa w)) chunk 0) (v.staged.length + 1)))) ∧
            (partRange p (chunk * 65536) (v.msgLen - 40 - msgKeyLen v.msg) = true →
              Steps s x v w (.mwritePart x) .mwrite s
                (v.setSlot (wRd w) (.busy (.part (v.g (wRa w)) chunk 4) v.staged.length)))) ∧
          Steps s x v w (.mdisc x) .mdisc s ({ v with staged := v.staged ++ [Staged.endPut p.putid] }.setSlot (wRd w)
            (.busy (.mdisc (v.g (wRa w)) 0) (v.staged.length + 1)))) ∧
        ((s.dieOf x v).put? (v.g (wRa w)).toNat = none →
          (mdPlain d 1 = true → wFunc w = 0 → v.dsag = true → Steps s x v w (.mwritePart x) .mwrite s
            (v.setSlot (wRd w) (.busy (.part (v.g (wRa w)) (mdChunk d) 3) v.staged.length))) ∧
          Steps s x v w (.mdisc x) .mdisc s (v.setSlot (wRd w) (.busy (.mdisc (v.g (wRa w)) 3) v.staged.length))) ∧
        (∀ q, s.cmd? v.commit = some q → v.g (wRa w) = v.g 0 →
          Steps s x v w (.msdisc x) .msdisc
            (s.modDie q.die (fun k => k.markPurge s.geo (q.region % 4) q.commit (v.g 0)))
            ({ v with erased := true }.setSlot (wRd w) (.busy (.msdisc (v.g 0)) v.staged.length))))) ∧
    (v.slot (wRd w) ≠ .idle → v.cls = 1 → v.g (wRa w) = v.g 0 → NirmAt s x v w .msdisc →
      exec (.msdisc x) s = .next ((s.invFault x v 0x000A v.pc v.charged).issueBy x))

/-- Output on a request engine. EMIT of octets within the response area, up to 1,179,648 in all, appends them, of none
nothing; past 4,096 octets in all it first takes a large-response unit of its die, or joins the queue for one. EMITD of a
range inside a live value appends a descriptor, up to 256 of them, of an empty range nothing. -/
def Sys2Proof.Stmt.NirmOutput : Prop :=
  ∀ (s : State) (e c : Nat) (v : Inv) (w : W32) (x : CtxId) (a n : Nat), x = .eng e c →
    a = (v.g (wRa w)).toNat → n = (v.g (wRb w)).toNat →
    (a + n ≤ 256 → v.outLen + n ≤ 1179648 →
      ((v.outLen ≤ 4096 ∨ v.large = true) → n = 0 → Steps s x v w (.emit x) .emit s v) ∧
      ((v.outLen + n ≤ 4096 ∨ v.large = true) → n ≠ 0 →
        Steps s x v w (.emit x) .emit s
          { v with out := v.out ++ [.octets (memRead v.rsp a n)], outLen := v.outLen + n }) ∧
      (4096 < v.outLen + n → v.large = false →
        (s.largeQueue (e / 128) = [] → s.unitsUsed (e / 128) < 16 → n ≠ 0 →
          Steps s x v w (.emit x) .emit s
            { v with out := v.out ++ [.octets (memRead v.rsp a n)], outLen := v.outLen + n, large := true }) ∧
        (s.largeQueue (e / 128) ≠ [] ∨ 16 ≤ s.unitsUsed (e / 128) →
          Waits s x v w (.emit x) .emit (s.setLargeQueue (e / 128) (s.largeQueue (e / 128) ++ [e * 8 + c])) v (.large a n)))) ∧
    (∀ d, (s.dieOf x v).liveBy (regHandle (v.g (wRa w))) = some d → n + (v.g (wRd w)).toNat ≤ d.length →
      (v.g (wRd w) = 0 → Steps s x v w (.emitd x) .emitd s v) ∧
      (v.g (wRd w) ≠ 0 → v.descs < 256 →
        Steps s x v w (.emitd x) .emitd s { v with
          out := v.out ++ [.range (e / 128) (regHandle (v.g (wRa w))) n (v.g (wRd w)).toNat], descs := v.descs + 1 }))

/-- Nirm media operations and output. `Stmt.NirmMedia` and `Stmt.NirmOutput` both hold. -/
def Obligations.NirmMediaAndOutput : Prop := Stmt.NirmMedia ∧ Stmt.NirmOutput

/-- Synchronisation. FENCE on a request engine in class SPAN waits for its condition. LOCK of a lock the handler may hold
joins its waiters and waits; UNLK of a lock held releases it. WAIT on a slot that has its result returns it and frees the
slot, on a busy slot waits; WAIT func 8 returns 0 once DATA is placed and waits before. That LOCK always waits and
LOCK_GRANT grants is the model's choice (log 42). -/
def Obligations.NirmSynchronisation : Prop :=
  ∀ (s : State) (e c : Nat) (v : Inv) (w : W32) (x : CtxId), x = .eng e c →
    (v.cls = 4 →
      Waits s x v w (.fenceConn x) (.fence 0) s v (.fence 0) ∧ Waits s x v w (.fencePkg x) (.fence 1) s v (.fence 1) ∧
      Waits s x v w (.fenceFlushns x) (.fence 2) s v (.fence 2) ∧
      Waits s x v w (.fenceFlushall x) (.fence 3) s v (.fence 3)) ∧
    (∀ p, regLock (v.g (wRa w)) = some p →
      ((Wf.placeDie p = 0 ∨ Wf.placeDie p = (lockUser x).die) → (s.locksOf (lockUser x)).length < 4 →
        p ∉ s.locksOf (lockUser x) →
        Waits s x v w (.lock x) .lock (s.lockRequest p (lockUser x)) v (.lock (wRd w) p)) ∧
      (p ∈ s.locksOf (lockUser x) → Steps s x v w (.unlk x) .unlk (s.lockRelease p) v)) ∧
    (∀ k, k < 8 →
      (∀ r, v.slot k = .done r → Steps s x v w (.wait x) (.wait k) s ((v.setSlot k .idle).setG (wRd w) (w64 r))) ∧
      (∀ op n, v.slot k = .busy op n → Waits s x v w (.wait x) (.wait k) s v (.slot (wRd w) k))) ∧
    (∀ q, v.dsag = true → s.cmd? v.commit = some q →
      (q.placedOk = true → Writes s x v w (.waitSaggar x) (.wait 8) 0) ∧
      (q.placedOk = false → Waits s x v w (.waitSaggar x) (.wait 8) s v (.saggar (wRd w))))

/-- Ends, events and special registers. DONE with 64 octets or more staged, a STATUS a handler may use and no lock held ends
the command with that output under the port die's fields: with STATUS OK its staged changes are applied, and while their
home die or a write to the saggar holds them back the handler stays at DONE; with another STATUS they are discarded. FAIL
with no lock held ends the command with its status and octets 2 to 63 of the response area and discards them. YIELD is
charged and changes nothing else of the handler. LOG raises event 0xF000 + func. MFS reads the special registers of Table
6-1, MTS writes status[63:8]; RDTIME and RDCYC read time. What counts as a full log is the model's choice (log 26). The
order of the engines among each other is the model's choice (log 37). The 16 engine cycles of a CLKT cycle are the model's
reading (log 99). -/
def Sys2Proof.Stmt.NirmEndsAndRegisters : Prop :=
  ∀ (s : State) (x : CtxId) (v : Inv) (w : W32),
    (∀ q st, NirmAt s x v w .done → v.work = .command v.commit → s.cmd? v.commit = some q → 64 ≤ segsLen v.out →
      s.locksOf (lockUser x) = [] → st = beAt ((s.viewOf v).segsRead v.out 0 2).1 0 2 → badStatus st = false →
      (st = 0 → (s.die q.die).applyHeld v.staged = false → (v.staged = [] ∨ v.writing = false) →
        exec (.done x) s = .next ((((s.freeCtx x).endApply q v.stagedBase v.stagedVal v.staged (stampHead q v.out)
          v.erased v.large).flushOrigin q.die).issueBy x)) ∧
      (st = 0 → ((s.die q.die).applyHeld v.staged = true ∨ v.staged ≠ [] ∧ v.writing = true) →
        exec (.done x) s = .next (s.issueBy x)) ∧
      (st ≠ 0 → exec (.done x) s = .next (((s.freeCtx x).endDiscard q (stampHead q v.out) v.large).issueBy x))) ∧
    (∀ q st, NirmAt s x v w .fail → v.work = .command v.commit → s.cmd? v.commit = some q →
      s.locksOf (lockUser x) = [] → st = (w.extractLsb' 0 16).toNat → st ≠ 0 → badStatus st = false →
      exec (.fail x) s = .next (((s.freeCtx x).endDiscard q
        (stampHead q [.octets (beOctets 2 st ++ memRead v.rsp 2 62)]) v.large).issueBy x)) ∧
    Steps s x v w (.yield x) .yield s v ∧
    (s.mode.mode ≠ .reset → ∃ t, Steps s x v w (.log x) .log t v ∧ t = { s with recorder := t.recorder } ∧
      Raised s t (0xF000 + wFunc w) (ctxSrc x) ((v.g (wRa w)).toNat % 2 ^ 32) ((v.g (wRa w)).toNat / 2 ^ 32)
        ((v.g (wRb w)).toNat % 2 ^ 32) ((v.g (wRb w)).toNat / 2 ^ 32)) ∧
    (wFunc w = 0 → Writes s x v w (.mfs x) .mfs (w64 v.pc)) ∧
    (wFunc w = 1 → Writes s x v w (.mfs x) .mfs (w64 (v.budget - v.charged - 1))) ∧
    (wFunc w = 2 → Writes s x v w (.mfs x) .mfs v.status) ∧
    (wFunc w = 3 → Writes s x v w (.mfs x) .mfs (w64 v.tag)) ∧
    (wFunc w = 4 → Writes s x v w (.mfs x) .mfs (w64 v.conn)) ∧
    (wFunc w = 5 → Writes s x v w (.mfs x) .mfs (w64 v.commit)) ∧
    Steps s x v w (.mts x) .mts s
      { v with status := (v.g (wRa w) &&& 0xFFFFFFFFFFFFFF00#64) ||| (v.status &&& 0xFF#64) } ∧
    Writes s x v w (.rdtime x) .rdtime (s.clock.tb.extractLsb' 32 64) ∧
    Writes s x v w (.rdcyc x) .rdcyc (w64 ((s.clock.cycles - v.start) * 16))

/-- Register access and faults. On a management engine that reaches the unit, RDREG and WRREG issue the access and wait; on
a request engine they end the command with HFAULT PRIV. An undecodable word ends its command with HFAULT ILLEGAL under ADD,
BEQ, LD8 and DONE alike; an ADD that the budget does not cover ends it with BUDGET. -/
def Sys2Proof.Stmt.NirmPrivilegeAndFaults : Prop :=
  (∀ (s : State) (d : Nat) (v : Inv) (w : W32) (x : CtxId), x = .mgmt d → reaches x (v.g (wRa w)) = true →
    Waits s x v w (.rdreg x) .rdreg s v (.rdreg (wRd w) (regPlace (v.g (wRa w))) (v.g (wRb w))) ∧
    Waits s x v w (.wrreg x) .wrreg s v (.wrreg (regPlace (v.g (wRa w))) (v.g (wRb w)) ((v.g (wRd w)).setWidth 32))) ∧
  (∀ (s : State) (e c : Nat) (v : Inv) (w : W32) (x : CtxId), x = .eng e c →
    (NirmAt s x v w .rdreg → exec (.rdreg x) s = .next ((s.invFault x v 0x0002 v.pc v.charged).issueBy x)) ∧
    (NirmAt s x v w .wrreg → exec (.wrreg x) s = .next ((s.invFault x v 0x0002 v.pc v.charged).issueBy x))) ∧
  (∀ (s : State) (x : CtxId) (v : Inv) (w : W32) (q : Cmd), Wf.ctxId x = true → s.inv x = some v → v.word = some w →
    v.wait = .none → s.turn x = true → v.work = .command v.commit → s.cmd? v.commit = some q →
    (opOf w = none → ∀ i, i = .add x ∨ i = .beq x ∨ i = .ld8 x ∨ i = .done x → exec i s = .next
      (((s.freeCtx x).endDiscard q (q.built 0x0021 (1 + v.pc * 2 ^ 16 + v.charged * 2 ^ 32)) v.large).issueBy x)) ∧
    (opOf w = some (.alu 0) → v.budget < v.charged + 1 → exec (.add x) s = .next
      (((s.freeCtx x).endDiscard q (q.built 0x0020 (v.pc * 2 ^ 16 + v.charged * 2 ^ 32)) v.large).issueBy x)))

/-- Ends, events, special registers and faults of Nirm. `Stmt.NirmEndsAndRegisters` and `Stmt.NirmPrivilegeAndFaults` both
hold. -/
def Obligations.NirmEndsAndFaults : Prop := Stmt.NirmEndsAndRegisters ∧ Stmt.NirmPrivilegeAndFaults

/-! ## The ends of waits -/

namespace Sys2Proof.Stmt

/-- Context x waits for `wt` with invocation v of command c. -/
structure WaitsFor (s : State) (x : CtxId) (v : Inv) (wt : Wait) : Prop where
  ctx : Wf.ctxId x = true
  inv : s.inv x = some v
  wait : v.wait = wt

/-- The wait of context x ends with the invocation's content u, the state otherwise t. -/
def Wakes (s : State) (x : CtxId) (i : Instr) (t : State) (u : Inv) : Prop :=
  exec i s = .next (t.setInv x (some { u with wait := .none }))

/-- The invocation whose EMIT of k octets at a waited for a large-response unit, granted one. -/
def grantLarge (v : Inv) (a k : Nat) : Inv :=
  let u := v.emit a k
  { u with large := true }

end Sys2Proof.Stmt

/-- DIRECTORY_REPLY and SUCC_ANSWER. In the order of the cluster's port, the directory answers DLOOK HASH with the number of
candidates and candidate K, PEND with whether the put exists and its record, DDEL by staging the removal or with 1, DINS and
DUPD of an empty value by staging the write and returning the handle or 0, a DINS without room with 0x1_FFFF_FFFF. The
merged SUCC answer comes once all earlier OWRITE commands of the namespace have ended; with no live key above the reference
it is 0. The CHAIN word of an entry is a free value (log 3). That a command whose conditions do not hold changes nothing is
the model's choice (log 1). -/
def Obligations.DirectoryWakes : Prop :=
  ∀ (s : State) (x : CtxId) (v : Inv), (v.wait.directory = true → s.portServes x v = true) →
    (∀ rd hash ns k dst, WaitsFor s x v (.lookup rd hash ns k dst) →
      (((s.dieOf x v).candidates hash ns).length ≤ k →
        Wakes s x (.directoryReply x) s (v.setG rd (w64 ((s.dieOf x v).candidates hash ns).length))) ∧
      (∀ e, ((s.dieOf x v).candidates hash ns)[k]? = some e → Runs (.directoryReply x) s (fun t => ∃ u, t.inv x = some u ∧
        u.wait = .none ∧ u.g rd = w64 ((s.dieOf x v).candidates hash ns).length ∧
        (∃ chain, u.scr dst 64 = (s.dieOf x v).entryOctets e chain) ∧ (∀ j, j < dst ∨ dst + 64 ≤ j →
          octetAt u.scratch j = octetAt v.scratch j) ∧ u.staged = v.staged ∧ t.dies = s.dies))) ∧
    (∀ rd id dst, WaitsFor s x v (.putRec rd id dst) →
      ((s.dieOf x v).put? id = none → Wakes s x (.directoryReply x) s (v.setG rd 0)) ∧
      (∀ p, (s.dieOf x v).put? id = some p →
        Wakes s x (.directoryReply x) s ((v.setScr dst (p.octets ++ keyRecord 0 p.usermeta p.key)).setG rd 1))) ∧
    (∀ rd h, WaitsFor s x v (.del rd h) →
      ((s.dieOf x v).byHandle h = none → Wakes s x (.directoryReply x) s (v.setG rd 1)) ∧
      (∀ e, (s.dieOf x v).byHandle h = some e →
        Wakes s x (.directoryReply x) s ({ v with staged := v.staged ++ [Staged.del h] }.setG rd 0))) ∧
    (∀ rd block c, WaitsFor s x v (.ins rd 3 block (some true)) → s.cmd? v.commit = some c →
      ∀ h, h = s.newHandle (homeDie x) (s.dieOf x v) → Wakes s x (.directoryReply x) s ({ v with
        staged := v.staged ++ [Staged.ins h
          { hash := w64 (leAt block 0 8), key := slice v.msg 40 (blkKeyLen (leAt block 40 8)) } 3 (leAt block 16 8)
          (blkLength (leAt block 8 8)) (w64 (leAt block 56 8))] }.setG rd (h.setWidth 64))) ∧
    (∀ rd block c, WaitsFor s x v (.ins rd 3 block (some false)) → s.cmd? v.commit = some c →
      Wakes s x (.directoryReply x) s (v.setG rd 0x1FFFFFFFF)) ∧
    (∀ rd h block c e, WaitsFor s x v (.upd rd h 3 block) → s.cmd? v.commit = some c → (s.dieOf x v).byHandle h = some e →
      Wakes s x (.directoryReply x) s ({ v with
        staged := v.staged ++ [Staged.upd h 3 (leAt block 16 8) (blkLength (leAt block 8 8)) (w64 (leAt block 56 8))] }.setG rd 0)) ∧
    (∀ rd ns key dst, WaitsFor s x v (.succ rd ns key dst) →
      (s.succReady v.commit ns = false → Idle (.succAnswer x) s) ∧
      (s.succReady v.commit ns = true → (s.viewOf v).liveKeys ns (fun k => decide (octetsCmp key k < 0)) = [] →
        Wakes s x (.succAnswer x) s (v.setG rd 0)))

/-- LEDGER_ROOM_READY, ALLOC_RESERVE, SEL_SEARCH_RESULT. The room of a DINS is decided when the ledger has applied every
lower commit number. A creating SADD gets the row the allocator reserves, 1, or with none free 0, once the allocator runs
and has applied every lower commit number. On a table with no damaged row, SEL with no match returns 0; with one match it
returns 1 and the match record with a cursor at its position. That a command whose conditions do not hold changes nothing is
the model's choice (log 1). -/
def Obligations.StreamWakes : Prop :=
  ∀ (s : State) (x : CtxId) (v : Inv),
    (∀ rd desc block c, WaitsFor s x v (.ins rd desc block none) → s.cmd? v.commit = some c →
      ((s.die c.die).ledger.appliedBelow c.commit = true →
        exec (.ledgerRoomReady x) s = .next (s.park x { v with wait := .ins rd desc block (some (s.hasRoom c.die
          (c.region % 4) (s.dieOf x v) (wdPend desc) (wdNewent desc) (blkLength (leAt block 8 8)))) })) ∧
      ((s.die c.die).ledger.appliedBelow c.commit = false → Idle (.ledgerRoomReady x) s)) ∧
    (∀ rd rm stem prio h, WaitsFor s x v (.sadd rd rm stem prio h) → s.sel.appliedBelow v.commit = true → s.allocRuns = true →
      (s.sel.place stem = none → Wakes s x (.allocReserve x) s (v.setG rd 0)) ∧
      (∀ i, s.sel.place stem = some i →
        Wakes s x (.allocReserve x)
          { s with sel := { s.sel with reserved := s.sel.reserved ++ [(i, v.commit)] } }
          ({ v with log := v.log.filter (fun q => decide (q.2.stem ≠ stem)),
                    staged := v.staged ++ [Staged.row i rm stem prio h true] }.setG rd 1))) ∧
    (∀ rd stem caps dst, WaitsFor s x v (.sel rd stem caps dst) → s.searchReady = true → s.sel.damaged = [] →
      v.staged = [] →
      (s.sel.matching stem caps = [] → Runs (.selSearchResult x []) s (fun t => ∃ u, t.inv x = some u ∧ u.wait = .none ∧
        u.g rd = 0 ∧ u.scr dst 16 = matchRecord noHandle 0 false 0 ∧ t.sel.rows = s.sel.rows)) ∧
      (∀ m, s.sel.matching stem caps = [m] → Runs (.selSearchResult x []) s (fun t => ∃ u k, t.inv x = some u ∧
        u.wait = .none ∧ u.g rd = 1 ∧ u.scr dst 16 = matchRecord m.2.2 m.1 false (cursorOf m.1 m.2.1 k) ∧
        t.sel.rows = s.sel.rows ∧ t.dies = s.dies)))

/-- Media results and register accesses. MEDIA_RESULT of an MREAD VALUE, with no LUN it reads in a RESET, sees the changes
staged before its issue: inside a live value whose octets read it places them and lands result 0; of a handle with no object
3; a waiting WAIT returns the result at once. REG_ACCESS_DONE performs the access: REGSTAT takes the status and RDREG the
value. That a command whose conditions do not hold changes nothing is the model's choice (log 1). The moment at which a
result lands is the model's choice (log 43). -/
def Obligations.MediaAndRegisterWakes : Prop :=
  ∀ (s : State) (x : CtxId) (v : Inv), Wf.ctxId x = true → s.inv x = some v →
    (∀ slot h chunk coff clen dst n c d, slot < 8 → v.slot slot = .busy (.value h chunk coff clen dst) n →
      s.cmd? v.commit = some c → v.wait ≠ .factory .erase → d = s.dieOf x { v with staged := v.staged.take n } →
      ((s.die (homeDie x)).opReads (.value h chunk coff clen dst)).all (s.die (homeDie x)).lunFree = true →
      (∀ e o, d.liveBy h = some e → chunk * 65536 + coff + clen ≤ e.length →
        d.valueRead e (chunk * 65536 + coff) clen = (o, none) →
        exec (.mediaResult x slot) s = .next (s.setInv x (some ((v.setScr dst o).landed slot 0)))) ∧
      (d.byHandle h = none →
        exec (.mediaResult x slot) s = .next (s.setInv x (some (v.landed slot 3))))) ∧
    (∀ slot r rd, v.wait = .slot rd slot → v.landed slot r = { (v.setSlot slot .idle).setG rd (w64 r) with wait := .none }) ∧
    (∀ slot, v.slot slot = .idle → slot < 8 → v.wait ≠ .factory .erase → Idle (.mediaResult x slot) s) ∧
    (∀ rd place off, v.wait = .rdreg rd place off →
      Wakes s x (.regAccessDone x) (s.regRead place off.toNat).2
        ({ v with status := (v.status &&& ~~~0xFF#64) ||| w64 (s.regRead place off.toNat).1.status }.setG rd
          ((s.regRead place off.toNat).1.value.setWidth 64))) ∧
    (∀ place off value, v.wait = .wrreg place off value → v.work = .program 32 none →
      Wakes s x (.regAccessDone x) (s.regWrite false place off.toNat value s.commitNow).2
        { v with status :=
            (v.status &&& ~~~0xFF#64) ||| w64 (s.regWrite false place off.toNat value s.commitNow).1.status })

/-- Locks, fences, units, caches. LOCK_GRANT passes a free lock to its first waiter, which gets 1 when the lock was
abandoned; a held lock or one with no waiter stays. FENCE_RELEASE ends a fence whose condition holds, and after CONN and PKG
marks the command. A free large-response unit goes to the first waiting handler with its EMIT. Cache fills, spill accesses
and window loads end their wait and change nothing else. That a command whose conditions do not hold changes nothing is the
model's choice (log 1). That LOCK always waits and LOCK_GRANT grants is the model's choice (log 42). -/
def Sys2Proof.Stmt.PlainWakes : Prop :=
  (∀ (s : State) (p : Nat) (u : LockUser) (rest : List LockUser) (v : Inv) (rd : Nat), Wf.lock p = true →
    (s.hwLock p).owner = none → (s.hwLock p).waiters = u :: rest →
    WaitsFor s u.ctxId v (.lock rd p) →
    Wakes s u.ctxId (.lockGrant p)
      (s.modLock p (fun l => { l with owner := some u, aband := false, waiters := rest }))
      (v.setG rd (if (s.hwLock p).aband then 1 else 0))) ∧
  (∀ (s : State) (p : Nat), Wf.lock p = true → ((s.hwLock p).owner ≠ none ∨ (s.hwLock p).waiters = []) →
    Idle (.lockGrant p) s) ∧
  (∀ (s : State) (x : CtxId) (v : Inv) (f : Nat) (c : Cmd), WaitsFor s x v (.fence f) → s.cmd? v.commit = some c →
    (s.fenceOk c f = false → Idle (.fenceRelease x) s) ∧
    (s.fenceOk c f = true → 2 ≤ f → Wakes s x (.fenceRelease x) s v) ∧
    (s.fenceOk c f = true → f < 2 →
      Wakes s x (.fenceRelease x) (s.modCmd c.commit (fun q => { q with fenced := true })) v)) ∧
  (∀ (s : State) (d n a k : Nat) (rest : List Nat) (v : Inv), d < 4 → s.largeQueue d = n :: rest → s.unitsUsed d < 16 →
    s.inv (.eng (n / 8) (n % 8)) = some v → v.wait = .large a k →
    Wakes s (.eng (n / 8) (n % 8)) (.largeUnitGrant d) (s.setLargeQueue d rest) (Stmt.grantLarge v a k)) ∧
  (∀ (s : State) (x : CtxId) (v : Inv),
    (WaitsFor s x v .icache → Wakes s x (.icacheFillDone x) s v) ∧
    (WaitsFor s x v .spill → Wakes s x (.spillAccessDone x) s v) ∧
    (WaitsFor s x v .window → Wakes s x (.windowLoadDone x) s v) ∧
    (WaitsFor s x v .none → Idle (.icacheFillDone x) s ∧ Idle (.spillAccessDone x) s ∧ Idle (.windowLoadDone x) s))

/-- WAITLIMIT. A timed wait of an operator handler ends the command with HFAULT code WAITLIMIT at the waiting instruction,
its changes discarded; a wait that is not timed goes on. That a command whose conditions do not hold changes nothing is the
model's choice (log 1). -/
def Sys2Proof.Stmt.WaitLimit : Prop :=
  ∀ (s : State) (x : CtxId) (v : Inv) (wt : Wait) (q : Cmd), WaitsFor s x v wt → v.work = .command v.commit →
    s.cmd? v.commit = some q →
    (wt = .icache ∨ wt = .spill ∨ wt = .window ∨ (∃ rd p, wt = .lock rd p) ∨ (∃ rd n k m d, wt = .lookup rd n k m d) →
      exec (.waitlimit x) s = .next ((s.freeCtx x).endDiscard q
        (q.built 0x0021 (0x000C + v.waitPc * 2 ^ 16 + v.waitCharge * 2 ^ 32)) v.large)) ∧
    ((∃ f, wt = .fence f) ∨ (∃ rd, wt = .saggar rd) ∨ wt = .none → Idle (.waitlimit x) s)

/-- The ends of plain waits and WAITLIMIT. `Stmt.PlainWakes` and `Stmt.WaitLimit` both hold. -/
def Obligations.OtherWakes : Prop := Stmt.PlainWakes ∧ Stmt.WaitLimit

/-! ## Selection, ledger, allocator -/

/-- The streams. ALLOC_APPLY applies a list of one row at the front of the allocator's stream while the allocator runs, the
arbiter of the row's bank is not shut and the effect log of its die has room: the row and its copy change, its reservation
ends. LEDGER_APPLY adds the net changes at the front of the ledger's stream, with no change of capacity due and every region
within its limit. Neither goes past a list that is not there yet. That a command whose conditions do not hold changes
nothing is the model's choice (log 1). What counts as a full log is the model's choice (log 26). -/
def Sys2Proof.Stmt.StreamsApply : Prop :=
  (∀ (s : State) (n i : Nat) (rm stem : W64) (prio : Nat) (h : W32) (rest : List (Nat × Option (List SelChange))),
    s.sel.stream = (n, some [.write i rm stem prio h]) :: rest → s.allocRuns = true →
    s.sel.reserved = [(i, n)] → s.shutOf (bankArb (bankOf i)) = false → s.cmd? n = none →
    (s.die (bankOf i / 4)).logFull = false →
    Runs .allocApply s (fun t => t.sel.row i = packRow rm stem prio h ∧ t.sel.copy i = packRow rm stem prio h ∧
      (∀ j, j ≠ i → t.sel.row j = s.sel.row j) ∧ t.sel.stream = rest ∧ t.sel.reserved = [] ∧ t.wot = s.wot ∧
      t = { s with sel := t.sel, dies := t.dies, eng := t.eng })) ∧
  (∀ (s : State) (n : Nat) (rest : List (Nat × Option (List SelChange))), s.sel.stream = (n, none) :: rest →
    Idle .allocApply s) ∧
  (∀ (s : State) (d n r : Nat) (chunks slots puts : Int) (rest : List (Nat × Option (List Delta))) (dl : Delta), d < 4 →
    (s.die d).ledger.stream = (n, some [dl]) :: rest → dl.region = r → dl.chunks = chunks → dl.slots = slots →
    dl.puts = puts → (s.die d).ledger.caps = [] → (∀ q, q < 4 → tabGet (fun _ => 0) ((s.die d).ledger.add dl).lcount q ≤ (s.die d).ledger.eolLimit q) →
    Runs (.ledgerApply d) s (fun t =>
      (t.die d).ledger.stream = rest ∧
      tabGet (fun _ => 0) (t.die d).ledger.lcount r = (tabGet (fun _ => 0) (s.die d).ledger.lcount r + chunks).toNat ∧
      (t.die d).ledger.slots = ((s.die d).ledger.slots + slots).toNat ∧
      (t.die d).ledger.puts = ((s.die d).ledger.puts + puts).toNat ∧
      (∀ e, e ≠ d → t.die e = s.die e) ∧ t = { s with dies := t.dies })) ∧
  (∀ (s : State) (d n : Nat) (rest : List (Nat × Option (List Delta))), d < 4 →
    (s.die d).ledger.stream = (n, none) :: rest → Idle (.ledgerApply d) s)

/-- Selection rows and their copies. While its bank is in service and not shut, outside RESET, the scrub of a row equal to
its copy only moves on; of a row that differs with a good copy it rewrites the row from the copy and counts it. A bank out
of service or shut is not scrubbed. A reset bank that has reloaded is back in service with every row of it equal to its
copy. A die that loses its cascade connection outside RESET, with no command under way, makes the table incomplete with
cause SELMIG. That a command whose conditions do not hold changes nothing is the model's choice (log 1). The number of
repairs before a fault is the model's choice (log 53). -/
def Sys2Proof.Stmt.SelectionRepair : Prop :=
  ∀ (s : State) (b i : Nat), b < 16 → i = b * 262144 + (s.bank b).scrub →
    ((s.bank b).inService = true → s.shutOf (bankArb b) = false → s.inReset = false → (s.bank b).scrub < 262144 →
      (s.sel.row i = s.sel.copy i →
        exec (.selScrub b [] []) s = .next (s.modBank b (fun k => { k with scrub := (k.scrub + 1) % 262144 }))) ∧
      (s.sel.row i ≠ s.sel.copy i → bankOf i = b →
        Runs (.selScrub b [] []) s (fun t => t.sel.row i = s.sel.copy i ∧ t.sel.copies = s.sel.copies ∧
          (∀ j, j ≠ i → t.sel.row j = s.sel.row j) ∧ (t.bank b).scrubfix = (s.bank b).scrubfix + 1 ∧
          (t.bank b).scrub = ((s.bank b).scrub + 1) % 262144 ∧ t = { s with sel := t.sel, recorder := t.recorder }))) ∧
    (((s.bank b).inService = false ∨ s.shutOf (bankArb b) = true) → Idle (.selScrub b [] []) s) ∧
    ((s.bank b).reloading = true → Runs (.selRestored b) s (fun t => (t.bank b).reloading = false ∧
      (t.bank b).inService = true ∧ (∀ j, bankOf j = b → t.sel.row j = s.sel.copy j) ∧ t.sel.copies = s.sel.copies)) ∧
    (∀ d, d < 4 → (s.die d).cascade = true → s.inReset = false → s.eng.cmds = [] →
      Runs (.cascadeConnectionLost d) s (fun t => (t.die d).cascade = false ∧ t.sel.complete = false ∧ t.cause 2 = true ∧
        t.otp = s.otp))

/-- The allocator, the ledger and the repair of rows. `Stmt.StreamsApply` and `Stmt.SelectionRepair` both hold. -/
def Obligations.SelectionAndLedger : Prop := Stmt.StreamsApply ∧ Stmt.SelectionRepair

/-! ## The event recorder, the arbiters -/

/-- The recorder's input and writer. One event of a held code at the input of a RECORDING recorder enters the FIFO while it
has room and waits while it has none; one of another code counts against RATE in its window, at which it is suppressed and
counted, and below which it enters a FIFO with room. A FROZEN, FULL or FAILED recorder counts it lost. The writer stores the
oldest FIFO event with the next SEQ, or EV_LOST with the pending counts; outside RECORDING it stores nothing. That a command
whose conditions do not hold changes nothing is the model's choice (log 1). -/
def Sys2Proof.Stmt.RecorderInputAndWriter : Prop :=
  (∀ (s : State) (e : Event), s.recorder.input = [e] → s.recorder.held = [] →
    Runs .eventInput s (fun t => t = { s with recorder := t.recorder } ∧ t.recorder.input = [] ∧
      t.recorder.store = s.recorder.store ∧ t.recorder.seq = s.recorder.seq ∧
      (s.recorder.stateCode = 0 → s.recorder.fifo.length < 64 → heldCode e.code = true →
        t.recorder.fifo = s.recorder.fifo ++ [e] ∧ t.recorder.supp = s.recorder.supp ∧ t.recorder.held = []) ∧
      (s.recorder.stateCode = 0 → 64 ≤ s.recorder.fifo.length → heldCode e.code = true →
        t.recorder.fifo = s.recorder.fifo ∧ t.recorder.held = [e]) ∧
      (s.recorder.stateCode = 0 → heldCode e.code = false → s.recorder.window = s.windowNo winMs →
        (tabGet (fun _ => 0) s.recorder.counts e.code < s.recorder.rateNow → s.recorder.fifo.length < 64 →
          t.recorder.fifo = s.recorder.fifo ++ [e] ∧
          tabGet (fun _ => 0) t.recorder.counts e.code = tabGet (fun _ => 0) s.recorder.counts e.code + 1) ∧
        (s.recorder.rateNow ≤ tabGet (fun _ => 0) s.recorder.counts e.code →
          t.recorder.fifo = s.recorder.fifo ∧
          tabGet (fun _ => 0) t.recorder.supp e.code = min (2 ^ 32 - 1) (tabGet (fun _ => 0) s.recorder.supp e.code + 1))) ∧
      (s.recorder.stateCode = 1 → t.recorder.fifo = s.recorder.fifo ∧
        t.recorder.lostFrozen = min (2 ^ 32 - 1) (s.recorder.lostFrozen + 1) ∧
        t.recorder.pendFreeze = s.recorder.pendFreeze + 1) ∧
      (s.recorder.stateCode = 2 → t.recorder.fifo = s.recorder.fifo ∧
        t.recorder.lostFull = min (2 ^ 32 - 1) (s.recorder.lostFull + 1)) ∧
      (s.recorder.stateCode = 3 → t.recorder.fifo = s.recorder.fifo ∧
        t.recorder.fsLost = min (2 ^ 32 - 1) (s.recorder.fsLost + 1)))) ∧
  (∀ (s : State) (e : Event) (rest : List Event), s.recorder.stateCode = 0 → s.recorder.owesLost = false →
    s.recorder.pendLost = 0 → s.recorder.pendFreeze = 0 → s.recorder.fifo = e :: rest →
    Runs .eventWrite s (fun t =>
      t.recorder.store = { ev := e, seq := s.recorder.seq } :: s.recorder.store ∧
      t.recorder.count = s.recorder.count + 1 ∧ t.recorder.seq = s.recorder.seq + 1 ∧
      (s.recorder.count + 1 < 65536 → t.recorder.fifo = rest ∧ t = { s with recorder := t.recorder }) ∧
      (s.recorder.count + 1 = 65536 → t.recorder.fifo = [] ∧ t.mode.alertCause.getLsbD 1 = true ∧
        t.recorder.lostFull = min (2 ^ 32 - 1) (s.recorder.lostFull + rest.length)))) ∧
  (∀ (s : State), s.recorder.stateCode = 0 → s.recorder.lastLost = false →
    (s.recorder.pendLost ≠ 0 ∨ s.recorder.pendFreeze ≠ 0) →
    Runs .eventWrite s (fun t => t.recorder.pendLost = 0 ∧ t.recorder.pendFreeze = 0 ∧
      t.recorder.seq = s.recorder.seq + 1 ∧ ∃ r, t.recorder.store = r :: s.recorder.store ∧ r.ev.code = 1 ∧
        r.seq = s.recorder.seq ∧ r.ev.p0 = w32 s.recorder.pendLost ∧ r.ev.p1 = w32 s.recorder.pendFreeze)) ∧
  (∀ s : State, s.recorder.stateCode ≠ 0 → Idle .eventWrite s)

/-- Freeze, clear and recorder failure. EV_CTRL takes FREEZE and a RATE that is not 0; CLEAR 1 empties a FROZEN or FULL
store, which EV_CLEARED then opens, starts the test of a FAILED one and is rejected while RECORDING, as RATE 0 is. An
uncorrectable error fails the recorder, the first one with its cause, index and time, and sets RECFAIL; a passed SRAM test
restarts it. That a command whose conditions do not hold changes nothing is the model's choice (log 1). That the row's
answer stands in a field of its own is the model's choice (log 5). That the row writes its whole register is the model's
choice (log 68). -/
def Sys2Proof.Stmt.RecorderControlAndFailure : Prop :=
  (∀ (s : State) (v : W32) (c : Instr), (c = .freeze v ∨ c = .clear v) → s.mode.mode ≠ .reset →
    (field v 16 10 ≠ 0 → v.getLsbD 1 = false →
      Runs c s (fun t => t.answer = { status := 0 } ∧ t.recorder.freeze = v.getLsbD 0 ∧ t.recorder.rate = field v 16 10 ∧
        t.recorder.owesLost = (s.recorder.owesLost || (s.recorder.freeze && !v.getLsbD 0)) ∧
        t.recorder.store = s.recorder.store ∧ t.recorder.count = s.recorder.count ∧ t.recorder.fifo = s.recorder.fifo ∧
        t = { s with recorder := t.recorder, answer := t.answer })) ∧
    (field v 16 10 ≠ 0 → v.getLsbD 1 = true → s.recorder.failed = false → s.recorder.stateCode ≠ 0 →
      Runs c s (fun t => t.answer = { status := 0 } ∧ t.recorder.count = 1 ∧ t.recorder.seq = s.recorder.seq + 1 ∧
        (∃ r, t.recorder.store = [r] ∧ r.ev.code = 2 ∧ r.seq = s.recorder.seq ∧ r.ev.p0 = w32 s.recorder.count) ∧
        t = { s with recorder := t.recorder, answer := t.answer })) ∧
    (field v 16 10 ≠ 0 → v.getLsbD 1 = true → s.recorder.failed = true →
      Runs c s (fun t => t.answer = { status := 0 } ∧ t.recorder.testing = true ∧ t.recorder.store = s.recorder.store)) ∧
    ((field v 16 10 = 0 ∨ (v.getLsbD 1 = true ∧ s.recorder.stateCode = 0)) →
      exec c s = .next { s with answer := { status := 6 } })) ∧
  (∀ (s : State) (cause index : Nat), 1 ≤ cause → cause ≤ 3 → index < 65536 →
    Runs (.recorderUe cause index) s (fun t => t.recorder.failed = true ∧ t.recorder.testing = false ∧ t.recorder.fifo = [] ∧
      t.recorder.fsCount = min 255 (s.recorder.fsCount + 1) ∧
      t.recorder.fsLost = min (2 ^ 32 - 1) (s.recorder.fsLost + s.recorder.fifo.length) ∧
      (s.recorder.fsCount = 0 → t.recorder.fsCause = cause ∧ t.recorder.fsIndex = index ∧ t.recorder.fsTime = s.now) ∧
      (s.recorder.fsCount ≠ 0 → t.recorder.fsCause = s.recorder.fsCause ∧ t.recorder.fsIndex = s.recorder.fsIndex ∧
        t.recorder.fsTime = s.recorder.fsTime) ∧
      t.recorder.store = s.recorder.store ∧
      (s.recorder.failed = false → t.mode.alertCause.getLsbD 0 = true) ∧
      t = { s with recorder := t.recorder, mode := { s.mode with alertCause := t.mode.alertCause }, pins := t.pins })) ∧
  (∀ (s : State) (n : Nat),
    exec (.recorderScrub n none) s = .next { s with
      recorder := { s.recorder with corr := min (2 ^ 32 - 1) (s.recorder.corr + n) } } ∧
    (∀ i, Runs (.recorderScrub n (some i)) s (fun t => t.recorder.failed = true ∧
      (s.recorder.fsCount = 0 → t.recorder.fsCause = 3 ∧ t.recorder.fsIndex = i % 65536)))) ∧
  (∀ s : State, (s.recorder.testing = false → ∀ p, Idle (.sramTestDone p) s) ∧
    (s.recorder.testing = true →
      Runs (.sramTestDone true) s (fun t => t.recorder.failed = false ∧ t.recorder.testing = false ∧ t.recorder.count = 1 ∧
        (s.recorder.failed = true → t.mode.alertCause.getLsbD 0 = false)) ∧
      Runs (.sramTestDone false) s (fun t => t.recorder.failed = s.recorder.failed ∧ t.recorder.testing = false ∧
        t.recorder.fsCount = min 255 (s.recorder.fsCount + 1))))

/-- The event recorder. `Stmt.RecorderInputAndWriter` and `Stmt.RecorderControlAndFailure` both hold. -/
def Obligations.EventRecorder : Prop := Stmt.RecorderInputAndWriter ∧ Stmt.RecorderControlAndFailure

/-- Arbiters and forced locks. A request of an unmasked unit is granted at once to a parked owner that nothing keeps from
it; that of another requester waits and drops the park; one of the high class that is not quota-masked revokes a low-class
grant that may be revoked. With no grant, no shutter and no dump, a decision grants the high-class requester that is not
masked of greatest rank. A window sets all counts to 0, and revokes a low-class grant where a high-class request then stands
unmasked. The end of a grant parks the arbiter on its owner, unless another requester asks. A write of SHUT takes while the
owning function runs and is rejected while it does not, and a shut arbiter grants nothing. LOCK_FORCE releases a held lock
as abandoned. That a command whose conditions do not hold changes nothing is the model's choice (log 1). That a write of
SHUT is then rejected is the model's reading (log 69). The status REJECTED is the model's reading (log 70). -/
def Obligations.ArbitersAndForcedLocks : Prop :=
  (∀ (s : State) (p k unit : Nat), Wf.arb p = true → Wf.requester p k = true → Wf.place unit = true →
    (unit ∈ s.masked → Idle (.arbRequest p k unit) s) ∧
    (¬ unit ∈ s.masked → Runs (.arbRequest p k unit) s (fun t => t = { s with arbs := t.arbs } ∧
      (∀ q, q ≠ p → t.arb q = s.arb q) ∧
      ((s.arb p).owner = some k → (s.arb p).granted = false → (s.arb p).asking p = [] → ((s.arb p).req p k).qmasked = false →
        s.shutOf p = false → s.dumpRuns = false →
        (t.arb p).granted = true ∧ (t.arb p).owner = some k ∧ (t.arb p).grantUnit = unit ∧
        ((t.arb p).req p k).count = ((s.arb p).req p k).count + 1) ∧
      ((s.arb p).owner ≠ some k → (s.arb p).granted = false →
        ((t.arb p).req p k).pend = ((s.arb p).req p k).pend ++ [unit] ∧ (t.arb p).owner = none ∧
        (t.arb p).granted = false) ∧
      (∀ j, (s.arb p).owner = some j → j ≠ k → (s.arb p).granted = true → (s.arb p).grantHigh = false →
        (s.arb p).grantNoRev = false → Wf.placeClass p ≠ 0x0E → ((s.arb p).req p k).high = true →
        ((s.arb p).req p k).qmasked = false →
        (t.arb p).granted = false ∧ (t.arb p).owner = none ∧
        ((t.arb p).req p j).pend = (s.arb p).grantUnit :: ((s.arb p).req p j).pend ∧
        ((t.arb p).req p k).pend = ((s.arb p).req p k).pend ++ [unit])))) ∧
  (∀ (s : State) (p : Nat), Wf.arb p = true →
    ((s.arb p).granted = true → Idle (.arbDecision p) s) ∧
    (s.shutOf p = true → s.dumpRuns = false → Idle (.arbDecision p) s) ∧
    (∀ k u rest, (s.arb p).granted = false → s.shutOf p = false → s.dumpRuns = false → Wf.requester p k = true →
      isDump p k = false → ((s.arb p).req p k).pend = u :: rest → ((s.arb p).req p k).high = true →
      ((s.arb p).req p k).qmasked = false →
      (∀ j, Wf.requester p j = true → j ≠ k → isDump p j = false → ((s.arb p).req p j).pend ≠ [] →
        ((s.arb p).req p j).high = true → ((s.arb p).req p j).qmasked = false →
        ((s.arb p).req p j).rank < ((s.arb p).req p k).rank) →
      Runs (.arbDecision p) s (fun t => (t.arb p).owner = some k ∧ (t.arb p).granted = true ∧ (t.arb p).grantUnit = u ∧
        (t.arb p).grantHigh = true ∧ ((t.arb p).req p k).pend = rest ∧
        ((t.arb p).req p k).count = ((s.arb p).req p k).count + 1 ∧
        (∀ j, j ≠ k → (t.arb p).req p j = (s.arb p).req p j) ∧ (∀ q, q ≠ p → t.arb q = s.arb q) ∧
        t = { s with arbs := t.arbs })) ∧
    Runs (.arbWindowStart p) s (fun t => t = { s with arbs := t.arbs } ∧ (∀ q, q ≠ p → t.arb q = s.arb q) ∧
      (∀ k, Wf.requester p k = true → ((t.arb p).req p k).count = 0) ∧
      (((s.arb p).granted = false ∨ (s.arb p).grantHigh = true ∨
          (∀ k, Wf.requester p k = true → ((s.arb p).req p k).high = true → ((s.arb p).req p k).pend = [])) →
        (t.arb p).owner = (s.arb p).owner ∧ (t.arb p).granted = (s.arb p).granted ∧
        ∀ k, Wf.requester p k = true → (t.arb p).req p k = { (s.arb p).req p k with count := 0 }) ∧
      (∀ j k, (s.arb p).owner = some j → (s.arb p).granted = true → (s.arb p).grantHigh = false →
        (s.arb p).grantNoRev = false → Wf.placeClass p ≠ 0x0E → Wf.requester p k = true →
        ((s.arb p).req p k).high = true → ((s.arb p).req p k).pend ≠ [] →
        (t.arb p).granted = false ∧ (t.arb p).owner = none ∧
        ((t.arb p).req p j).pend = (s.arb p).grantUnit :: ((s.arb p).req p j).pend)) ∧
    ((s.arb p).granted = false → Idle (.arbGrantEnd p) s) ∧
    (∀ k, (s.arb p).granted = true → (s.arb p).owner = some k →
      Runs (.arbGrantEnd p) s (fun t => t = { s with arbs := t.arbs } ∧ (∀ q, q ≠ p → t.arb q = s.arb q) ∧
        (t.arb p).granted = false ∧ ((t.arb p).req p k).revoked = 0 ∧
        ((t.arb p).req p k).pend = ((s.arb p).req p k).pend ∧
        ((∀ j, Wf.requester p j = true → j ≠ k → ((s.arb p).req p j).pend = []) → ((s.arb p).req p k).qmasked = false →
          (t.arb p).owner = some k) ∧
        (∀ j, Wf.requester p j = true → j ≠ k → ((s.arb p).req p j).pend ≠ [] → (t.arb p).owner = none))) ∧
    (∀ v, s.unitDown p = false → (s.fn (arbFn p)).state = .running → field v 8 8 = (s.arb p).winMul → field v 8 8 ≠ 0 →
      Runs (.shut p v) s (fun t => t.answer = { status := 0 } ∧ t.arb p = { s.arb p with shut := v.getLsbD 0 } ∧
        (∀ q, q ≠ p → t.arb q = s.arb q) ∧ t = { s with arbs := t.arbs, answer := t.answer })) ∧
    (∀ v, s.unitDown p = false → (s.fn (arbFn p)).state ≠ .running → field v 8 8 = (s.arb p).winMul →
      v.getLsbD 0 ≠ (s.arb p).shut → exec (.shut p v) s = .next { s with answer := { status := 6 } })) ∧
  (∀ (s : State) (die : Nat) (v : W32), die < 5 → s.unitDown (placeOf die 0 0 0x01 0) = false →
    (v.getLsbD 31 = false → exec (.lockForce die v) s = .next { s with answer := { status := 0 } }) ∧
    (v.getLsbD 31 = true → die = 0 → field v 8 2 ≠ 0 →
      exec (.lockForce die v) s = .next { s with answer := { status := 6 } }) ∧
    (v.getLsbD 31 = true → (die ≠ 0 ∨ field v 8 2 = 0) → ∀ p, p = lockPlace die (field v 8 2 * 256 + field v 0 8) →
      Runs (.lockForce die v) s (fun t => t.answer = { status := 0 } ∧ (t.hwLock p).owner = none ∧
        (t.hwLock p).waiters = (s.hwLock p).waiters ∧
        (t.hwLock p).aband = ((s.hwLock p).aband || (s.hwLock p).owner.isSome) ∧
        (∀ q, q ≠ p → t.hwLock q = s.hwLock q) ∧ t = { s with locks := t.locks, answer := t.answer })))

/-! ## Faults of units -/

namespace Sys2Proof.Stmt

/-- The first fault of a unit in a window leaves the count 1, each further one in it adds 1. -/
def hits (u : UnitFault) (w : Nat) : Nat := if u.window = w then u.resets + 1 else 1

/-- What no fault touches. -/
def SettingsKept (s t : State) : Prop := t.otp = s.otp ∧ t.tables = s.tables ∧ t.clock = s.clock ∧ t.tap = s.tap

end Sys2Proof.Stmt

/-- Faults of engines and clusters outside RESET. With no command under way, an engine whose parity fails is reset: its
locks are released as abandoned and its fault count rises; the third reset in 60 s retires it, which sets
ALERT_CAUSE.RETIRED and keeps it masked. Below the third, the one command, which ran on it, queues for the next engine in
service. A cluster error that was corrected changes nothing, one in an instruction cache counts a miss, any other counts for
the cluster alone, the third retiring all eight engines. That a command whose conditions do not hold changes nothing is the
model's choice (log 1). That a unit's reset takes no time is the model's reading (log 95). -/
def Sys2Proof.Stmt.EngineAndClusterFaults : Prop :=
  ∀ (s : State), s.mode.mode ≠ .reset →
    (∀ e, e < 512 → (s.engFault e).retired = false → ∀ n, n = hits (s.engFault e) (s.windowNo win60s) →
      (s.eng.cmds = [] →
        Runs (.engineParityError e) s (fun t => SettingsKept s t ∧
          t.engFault e = { resets := n, window := s.windowNo win60s, retired := decide (3 ≤ n) } ∧
          (∀ p u, (s.hwLock p).owner = some u → u.place = enginePlace e →
            (t.hwLock p).owner = none ∧ (t.hwLock p).aband = true) ∧
          (∀ p u, (s.hwLock p).owner = some u → u.place ≠ enginePlace e → (t.hwLock p).owner = some u) ∧
          (n < 3 → ¬ enginePlace e ∈ t.masked) ∧
          (3 ≤ n → enginePlace e ∈ t.masked ∧ t.mode.alertCause.getLsbD 2 = true))) ∧
      (∀ c k f, n < 3 → s.eng.cmds = [c] → c.engine = e → c.phase = .running (.eng e k) →
        s.engineFor c.region ((e + 1) % 32) = some f →
        Runs (.engineParityError e) s (fun t => t.inv (.eng e k) = none ∧
          t.eng.cmds = [{ c with phase := .queued, fenced := false, engine := f }]))) ∧
    (∀ c, c < 64 → (s.clFault c).retired = false →
      Idle (.clusterEccError c .corrected) s ∧
      exec (.clusterEccError c .icache) s = .next { s with
        eng := { s.eng with icMiss := tabSet (fun _ => 0) s.eng.icMiss c ((tabGet (fun _ => 0) s.eng.icMiss c + 1) % 2 ^ 64) } } ∧
      (∀ n, n = hits (s.clFault c) (s.windowNo win60s) → s.eng.cmds = [] →
        Runs (.clusterEccError c .state) s (fun t => SettingsKept s t ∧
          t.clFault c = { resets := n, window := s.windowNo win60s, retired := decide (3 ≤ n) } ∧
          (n < 3 → ∀ e, t.engFault e = s.engFault e) ∧
          (3 ≤ n → t.mode.alertCause.getLsbD 2 = true ∧ ∀ i, i < 8 → (t.engFault (c * 8 + i)).retired = true))))

/-- Faults of management engines and of the port die outside RESET. With no Transom request waiting, a management engine's
error resets it and ends what it runs; its third in 60 s takes a store die in service, with no command under way, offline
with cause 3; the port die's third resets the package with PKGFAULT. An error in a receive buffer drops that frame and
counts it; any other error of the port die, outside HOLDUP too, resets the package with PKGFAULT, the clocks and OTP
settings kept. Cause 3 of a retired management engine is the model's reading (log 55). That a unit's reset takes no time is
the model's reading (log 95). -/
def Sys2Proof.Stmt.ManagementAndPortDieFaults : Prop :=
  (∀ (s : State) (d n : Nat), d < 5 → s.mode.mode ≠ .reset → (s.mgmtFault d).retired = false →
    n = hits (s.mgmtFault d) (s.windowNo win60s) →
    (n < 3 → s.eng.treqs = [] → Runs (.mgmtEngineError d) s (fun t => SettingsKept s t ∧
      t.mgmtFault d = { resets := n, window := s.windowNo win60s, retired := false } ∧ t.inv (.mgmt d) = none)) ∧
    (3 ≤ n → d ≠ 0 → s.eng.treqs = [] → s.eng.cmds = [] → (s.die (d - 1)).cause = 0 →
      Runs (.mgmtEngineError d) s (fun t => SettingsKept s t ∧ (t.die (d - 1)).cause = 3 ∧ (t.die (d - 1)).online = false ∧
        t.mode.alertCause.getLsbD 2 = true)) ∧
    (3 ≤ n → d = 0 → Runs (.mgmtEngineError d) s (fun t => t.mode.mode = .reset ∧ t.mode.alertCause.getLsbD 5 = true ∧
      t.clock.rootLock = s.clock.rootLock ∧ t.clock.tb = s.clock.tb ∧ t.otp = s.otp))) ∧
  (∀ (s : State), Awake s →
    Runs (.portDieUe none) s (fun t => t.mode.mode = .reset ∧ t.mode.alertCause.getLsbD 5 = true ∧
      t.clock.rootLock = s.clock.rootLock ∧ t.clock.tb = s.clock.tb ∧ t.otp = s.otp ∧ t.wot = {} ∧ t.eng = {} ∧ t.locks = [])) ∧
  (∀ (s : State) (m p i : Nat), m < 128 → s.mode.mode ≠ .reset → i < ((s.mac m).ring p).length →
    Runs (.portDieUe (some (m, p, i))) s (fun t => (t.mac m).ring p = ((s.mac m).ring p).eraseIdx i ∧
      tabGet (fun _ => 0) (t.mac m).counters 3 = (tabGet (fun _ => 0) (s.mac m).counters 3 + 1) % 2 ^ 64 ∧
      (∀ q, q ≠ p → (t.mac m).ring q = (s.mac m).ring q) ∧ SettingsKept s t ∧ t.wot = s.wot ∧ t.dies = s.dies))

/-- Faults of engines, clusters, management engines and the port die. `Stmt.EngineAndClusterFaults` and
`Stmt.ManagementAndPortDieFaults` both hold. -/
def Obligations.EngineAndPortFaults : Prop := Stmt.EngineAndClusterFaults ∧ Stmt.ManagementAndPortDieFaults

/-- Faults of the HBM stacks outside RESET, with no command under way. A lost stack takes its die offline with cause 2: its
home part is gone, the mirror copies it held of the die before count as gone, and the next die, when its own stack stands
and the lost home part was live, keeps the lost die's copy as a PREDUMP image. An uncorrectable error below the fourth has
the effect of its partition: a saggar copy is good only while its mirror is, a cached value is dropped; the fourth of a
pseudo-channel in a day retires it and loses the stack. That the physical outcome is an operand is the model's choice (log
30). -/
def Sys2Proof.Stmt.HbmFaults : Prop :=
  ∀ (s : State) (d : Nat), d < 4 → s.mode.mode ≠ .reset → (s.die d).stackLost = false → s.eng.cmds = [] →
    (∀ cause, 1 ≤ cause → cause ≤ 3 → (s.die d).cause ≠ 2 →
      Runs (.stackLoss d cause) s (fun t => SettingsKept s t ∧ (t.die d).stackLost = true ∧ (t.die d).stackCause = cause ∧
        (t.die d).cause = 2 ∧ (t.die d).online = false ∧ (t.die d).live = false ∧ (t.die d).dir = [] ∧ (t.die d).log = [] ∧
        (t.die d).extents = [] ∧ (t.die d).slots = (s.die d).slots ∧ t.sel.complete = false ∧
        ((s.die d).live = true → (s.die ((d + 1) % 4)).stackLost = false →
          (t.die ((d + 1) % 4)).images = s.preDump d :: (s.die ((d + 1) % 4)).images) ∧
        ((s.die d).live = false → (t.die ((d + 1) % 4)).images = (s.die ((d + 1) % 4)).images) ∧
        (∀ x, x ∈ (t.die ((d + 3) % 4)).extents → x.mirrorGood = false))) ∧
    (∀ pch n, pch < 32 → (tabGet (fun _ => {}) (s.die d).pseudo pch).retired = false →
      n = (if (tabGet (fun _ => {}) (s.die d).pseudo pch).window = s.windowNo winDay then
        (tabGet (fun _ => {}) (s.die d).pseudo pch).ue + 1 else 1) →
      (n < 4 → ∀ ref slot,
        Runs (.hbmUe d pch (.saggar false ref)) s (fun t =>
          (tabGet (fun _ => {}) (t.die d).pseudo pch).ue = n ∧ (tabGet (fun _ => {}) (t.die d).pseudo pch).retired = false ∧
          (t.die d).extents = (s.die d).extents.map (fun e => if e.ref = ref then { e with homeGood := e.mirrorGood } else e) ∧
          (∀ e, e ≠ d → t.die e = s.die e)) ∧
        Runs (.hbmUe d pch (.cache slot)) s (fun t =>
          (tabGet (fun _ => {}) (t.die d).pseudo pch).ue = n ∧
          (((s.die d).entry slot).cached = true → ((t.die d).entry slot).cached = false))) ∧
      (4 ≤ n → (s.die d).cause ≠ 2 → ∀ ref,
        Runs (.hbmUe d pch (.saggar false ref)) s (fun t => (t.die d).stackLost = true ∧ (t.die d).stackCause = 3 ∧
          (tabGet (fun _ => {}) (t.die d).pseudo pch).retired = true ∧ (t.die d).cause = 2 ∧
          t.mode.alertCause.getLsbD 2 = true ∧ placeOf (d + 1) 0 0 0x08 pch ∈ t.masked)))

/-- Die links outside RESET, with no command under way. A CRC error of a link in service is a replay; the eighth of one
cycle takes the link out of service to retrain. A retrain that succeeds puts it back in service, one that fails retires it.
The fourth retrain in 10 s retires it too. That a command whose conditions do not hold changes nothing is the model's choice
(log 1). That one CLKT cycle stands for one link cycle is the model's reading (log 56). -/
def Sys2Proof.Stmt.DieLinks : Prop :=
  ∀ (s : State) (n : Nat), n < 16 → s.mode.mode ≠ .reset → s.eng.cmds = [] →
    (∀ k, k = (if (s.link n).cycleAt = s.clock.cycles then (s.link n).cycleReplays + 1 else 1) →
      ((s.link n).inService = false → Idle (.dlinkCrcError n) s) ∧
      ((s.link n).inService = true → k < 8 → Runs (.dlinkCrcError n) s (fun t =>
        t.link n = { s.link n with replays := ((s.link n).replays + 1) % 2 ^ 64, cycleReplays := k, cycleAt := s.clock.cycles } ∧
        (∀ m, m < 16 → m ≠ n → t.link m = s.link m) ∧ SettingsKept s t)) ∧
      ((s.link n).inService = true → 8 ≤ k → ∀ w, w = s.windowNo win10s →
        Runs (.dlinkCrcError n) s (fun t => (t.link n).inService = false ∧
          (t.link n).retrains = (if (s.link n).window = w then (s.link n).retrains + 1 else 1) ∧ (t.link n).window = w ∧
          (4 ≤ (t.link n).retrains → (t.link n).retired = true) ∧
          ((t.link n).retrains < 4 → (t.link n).retraining = true ∧ (t.link n).retired = (s.link n).retired) ∧
          (∀ m, m < 16 → m ≠ n → t.link m = s.link m) ∧ SettingsKept s t))) ∧
    ((s.link n).retraining = false → ∀ b, Idle (.dlinkRetrainEnd n b) s) ∧
    ((s.link n).retraining = true →
      Runs (.dlinkRetrainEnd n true) s (fun t => t.link n = { s.link n with retraining := false, inService := true } ∧
        (∀ m, m < 16 → m ≠ n → t.link m = s.link m) ∧ SettingsKept s t) ∧
      Runs (.dlinkRetrainEnd n false) s (fun t => (t.link n).retired = true ∧ (t.link n).inService = false ∧
        t.mode.alertCause.getLsbD 2 = true ∧ (∀ m, m < 16 → m ≠ n → t.link m = s.link m)))

/-- Faults of HBM stacks and die links. `Stmt.HbmFaults` and `Stmt.DieLinks` both hold. -/
def Obligations.StackAndLinkFaults : Prop := Stmt.HbmFaults ∧ Stmt.DieLinks

/-! ## The flash channels -/

namespace Sys2Proof.Stmt

/-- Work of the media runs on store die d: outside RESET and HOLDUP, its home part live, no write held for its replicas. -/
def MediaUp (s : State) (d : Nat) : Prop :=
  d < 4 ∧ s.mode.mode ≠ .reset ∧ s.mode.mode ≠ .holdup ∧ (s.die d).live = true ∧ s.fab.waits = []

/-- The next chunk of region r's stream st goes to physical chunk address new in the mode slc, and leaves its stripe open. -/
def NextPlace (s : State) (d r : Nat) (st : Stream) (slc : Bool) (new : Nat) : Prop :=
  ∃ k y pos q, ((s.die d).region r).open_ st = some k ∧ (s.die d).super k = some y ∧ y.slc = slc ∧
    (s.die d).nextPos s.geo y = some pos ∧ new = y.pcaAt pos ∧
    (s.die d).nextPos s.geo { y with filled := pos + 1 } = some q ∧ q / 14 = pos / 14

/-- Superblock k of region r needs one chunk copied, e at pca, and its copy goes to new in stream st. -/
def OneChunk (s : State) (d r k : Nat) (st : Stream) (pca new : Nat) (e : Slot) : Prop :=
  MediaUp s d ∧ r < 4 ∧
  (∃ x, (s.die d).super k = some x ∧ x.region = r ∧ (s.die d).validSlots x = [(pca, e)]) ∧ ∃ slc, NextPlace s d r st slc new

/-- The copy is under way: under its owner's handle with the next SEQ, not yet verified, the map as before. -/
def Copied (s t : State) (d pca new : Nat) (e : Slot) : Prop :=
  (∃ c, (t.die d).slot new = some c ∧ c.handle = (s.die d).ownerNow e ∧ c.chunk = e.chunk ∧ c.data = e.data ∧
    c.src = some pca ∧ c.verified = false ∧ c.named = false ∧ c.seq = (s.die d).seqNext) ∧
  (∀ p, p ≠ new → (t.die d).slot p = (s.die d).slot p) ∧ (t.die d).map = (s.die d).map ∧ (t.die d).dir = (s.die d).dir ∧
  (t.die d).seqNext = (s.die d).seqNext + 1

/-- No stripe of the region's HOST superblock is begun, and the COPY stream fills another superblock. -/
def HostWhole (s : State) (d r : Nat) : Prop :=
  ∀ k y, ((s.die d).region r).host = some k → (s.die d).super k = some y →
    y.filled % 14 = 0 ∧ ((s.die d).region r).copy ≠ some k

/-- Failures of channel c in its window, this one counted. -/
def failsNow (s : State) (c : Channel) : Nat := if c.window = s.windowNo win10s then c.fails + 1 else 1

end Sys2Proof.Stmt

/-- Timeouts, power states, re-centring. An operation that times out on a LUN sends RESET and counts a failure of its
channel, which the eighth in a window retires; a RESET that times out fails the die. At a tick a RESET under way has ended;
while the package serves, a die with an operation queued is ACTIVE, and one with no planned work takes the state that the
time to its re-centring gives. A target that re-centres at its bin keeps it. One that fails counts a failure of its channel,
which is trained again one bin lower: it takes the lowest bin that its targets reach, the dies of a target that reaches none
fail, and the channel is retired when no target reaches one. At bin 0 the target's dies fail, and the last target's failure
retires the channel. That the physical outcome is an operand is the model's choice (log 30). -/
def Obligations.ChannelCare : Prop :=
  ∀ (s : State) (d : Nat), d < 4 → s.mode.mode ≠ .reset →
    (∀ f, f < 1024 → ((s.die d).flashDie f).populated = true → ((s.die d).flashDie f).failed = false →
      (((s.die d).flashDie f).resetting = true →
        Runs (.lunTimeout d f) s (fun t => ((t.die d).flashDie f).failed = true ∧ t.mode.alertCause.getLsbD 2 = true ∧
          t.otp = s.otp ∧ t.clock = s.clock)) ∧
      (∀ c, c = (s.die d).channel (f / 16) → ((s.die d).flashDie f).resetting = false → c.retired = false →
        (s.flashQueued d f = true ∨ (s.die d).planned f = true) →
        Runs (.lunTimeout d f) s (fun t => ((t.die d).flashDie f).resetting = true ∧
          ((t.die d).channel (f / 16)).fails = failsNow s c ∧ ((t.die d).channel (f / 16)).window = s.windowNo win10s ∧
          ((t.die d).channel (f / 16)).retired = decide (8 ≤ failsNow s c)))) ∧
    (s.mode.mode ≠ .holdup →
      Runs (.dieStateTick d) s (fun t => t = { s with dies := t.dies, draws := t.draws } ∧ (∀ e, e ≠ d → t.die e = s.die e) ∧
        (∀ c p, c < 64 → p < ((s.die d).channel c).dies → ((t.die d).flashDie (c * 16 + p)).resetting = false ∧
          (s.mode.mode.serving = false →
            ((t.die d).flashDie (c * 16 + p)).power = ((s.die d).flashDie (c * 16 + p)).power) ∧
          (s.mode.mode.serving = true → ((s.die d).flashDie (c * 16 + p)).populated = true →
            ((s.die d).flashDie (c * 16 + p)).failed = false →
            (s.flashQueued d (c * 16 + p) = true → ((t.die d).flashDie (c * 16 + p)).power = .active) ∧
            (s.flashQueued d (c * 16 + p) = false → (s.die d).planned (c * 16 + p) = false →
              ((t.die d).flashDie (c * 16 + p)).power = powerFor (tabGet (fun _ => 0)
                ((s.die d).channel ((c * 16 + p) / 16)).centred ((c * 16 + p) % 16 / 4) + 10000000 - s.clock.cycles)))))) ∧
    (∀ ch target c desk results, ch < 64 → target < 4 → Wf.desk desk = true → c = (s.die d).channel ch → c.trained = true →
      c.retired = false → c.dies ≤ 16 → target < targetsOf c.dies → s.targetGone d ch target = false → s.mode.mode ≠ .holdup →
      Runs (.recentre d ch target ⟨true, results⟩ desk) s (fun t =>
        (t.die d).channel ch = { c.readings desk with centred := tabSet (fun _ => 0) c.centred target s.clock.cycles } ∧
        (∀ e, e ≠ d → t.die e = s.die e)) ∧
      (8 ≤ failsNow s c → Runs (.recentre d ch target ⟨false, results⟩ desk) s (fun t =>
        ((t.die d).channel ch).retired = true ∧ t.mode.alertCause.getLsbD 2 = true)) ∧
      (∀ used, 0 < c.bin → failsNow s c < 8 →
        used = ((upto (targetsOf c.dies)).filter (fun k => !s.targetGone d ch k)).map (fun k => (k, resultOf results (c.bin - 1) k)) →
        (trainedBin (used.map (fun u => u.2)) = none → Runs (.recentre d ch target ⟨false, results⟩ desk) s (fun t =>
          ((t.die d).channel ch).retired = true)) ∧
        (∀ b, trainedBin (used.map (fun u => u.2)) = some b → Runs (.recentre d ch target ⟨false, results⟩ desk) s (fun t =>
          ((t.die d).channel ch).bin = b ∧ ((t.die d).channel ch).fails = failsNow s c ∧ ((t.die d).channel ch).retired = false ∧
          ∀ k l, (k, Trained.failed) ∈ used → l < 4 → 4 * k + l < c.dies →
            ((t.die d).flashDie (ch * 16 + 4 * k + l)).failed = true))) ∧
      (c.bin = 0 → failsNow s c < 8 →
        ((∀ k, k < targetsOf c.dies → k ≠ target → s.targetGone d ch k = true) →
          Runs (.recentre d ch target ⟨false, results⟩ desk) s (fun t => ((t.die d).channel ch).retired = true)) ∧
        (∀ k, k < targetsOf c.dies → k ≠ target → s.targetGone d ch k = false →
          Runs (.recentre d ch target ⟨false, results⟩ desk) s (fun t => ((t.die d).channel ch).retired = false ∧
            ((t.die d).channel ch).bin = 0 ∧
            ∀ l, l < 4 → 4 * target + l < c.dies → ((t.die d).flashDie (ch * 16 + 4 * target + l)).failed = true))))

/-- Reads, verification and erase. A verified slot that decodes is read and counts for its block; one that does not, and
that its stripe cannot rebuild, becomes unreadable. A program that verifies with a share of at most 80 of 320 bits verifies
its slot: the map names the chunk if its stripe's parity is verified, and stays as it is if not; any other outcome retires
the block and leaves the map. An erase that ends takes the block's chunks and counts, and retires the block at ELIMIT; one
that fails retires it. That a command whose conditions do not hold changes nothing is the model's choice (log 1). That the
physical outcome is an operand is the model's choice (log 30). -/
def Obligations.ReadsProgramsErases : Prop :=
  ∀ (s : State) (d : Nat), d < 4 → s.mode.mode ≠ .reset →
    (∀ pca e, pca < 2 ^ 36 → (s.die d).slot pca = some e → e.verified = true → (s.die d).lunFree pca = true →
      (s.die d).erased (pcaChannel pca) (pcaPos pca) = false →
      (∀ c rest stripe, Runs (.flashReadDone d pca (.share c :: rest) stripe) s (fun t =>
        ((t.die d).block (pcaBlock pca)).reads = ((s.die d).block (pcaBlock pca)).reads + 1 ∧
        (t.die d).slots = (s.die d).slots ∧ (t.die d).map = (s.die d).map ∧ ∀ k, k ≠ d → t.die k = s.die k)) ∧
      (∀ attempts stripe, firstGood (attempts.take 4) = none → (s.die d).rebuilds pca stripe = false →
        Runs (.flashReadDone d pca attempts stripe) s (fun t =>
          ∃ u, (t.die d).slot pca = some u ∧ u.unreadable = true ∧ u.handle = e.handle ∧ u.data = e.data)) ∧
      (∀ attempts stripe, firstGood (attempts.take 4) = none → (s.die d).rebuilds pca stripe = true →
        failsNow s ((s.die d).channel (pcaChannel pca)) < 8 →
        Runs (.flashReadDone d pca attempts stripe) s (fun t => (t.die d).slots = (s.die d).slots ∧
          ((t.die d).channel (pcaChannel pca)).fails = failsNow s ((s.die d).channel (pcaChannel pca))))) ∧
    (∀ pca e k x, pca < 2 ^ 36 → (s.die d).slot pca = some e → e.verified = false → (s.die d).lunFree pca = true →
      (s.die d).groupWhole pca e.slc = true → (s.die d).superOf (pcaBlock pca) = some k → (s.die d).super k = some x →
      (∀ c, c ≤ 80 → e.kind = .data → e.named = false →
        ((s.die d).parityVerified x (pcaSlot pca) = false →
          Runs (.chunkVerified d pca (.share c)) s (fun t => (t.die d).slot pca = some { e with verified := true } ∧
            (t.die d).map = (s.die d).map ∧ (t.die d).dir = (s.die d).dir)) ∧
        (∀ i, e.sys = false → e.src = none → (s.die d).mapIndex e = some i →
          (s.die d).parityVerified x (pcaSlot pca) = true →
          ((s.die d).stripeSlots x (pcaSlot pca)).filter (fun u => !u.2.named && decide (u.2.kind = .data)) = [(pca, e)] →
          Runs (.chunkVerified d pca (.share c)) s (fun t =>
            tabGet (fun _ => {}) (t.die d).map i = { pca := pca, onMedia := true, slc := e.slc } ∧
            (∀ j, j ≠ i → tabGet (fun _ => {}) (t.die d).map j = tabGet (fun _ => {}) (s.die d).map j) ∧
            (t.die d).slot pca = some { e with verified := true, named := true } ∧ (t.die d).dir = (s.die d).dir))) ∧
      (∀ r, (r = .programFailed ∨ r = .verifyFailed ∨ ∃ c, 80 < c ∧ r = .share c) →
        Runs (.chunkVerified d pca r) s (fun t => ((t.die d).block (pcaBlock pca)).bad = true ∧
          (t.die d).map = (s.die d).map ∧ (t.die d).dir = (s.die d).dir))) ∧
    (∀ b, b < 1024 * 16384 → s.mode.mode ≠ .holdup →
      ((s.die d).mayErase b = false → ∀ ok, Idle (.eraseDone d b ok) s) ∧
      ((s.die d).mayErase b = true → ((s.die d).flashDie (b / 16384)).resetting = false →
        Runs (.eraseDone d b true) s (fun t => (∀ p, pcaBlock p = b → (t.die d).slot p = none) ∧
          (∀ p, pcaBlock p ≠ b → (t.die d).slot p = (s.die d).slot p) ∧
          ((t.die d).block b).erases = ((s.die d).block b).erases + 1 ∧ ((t.die d).block b).reads = 0 ∧
          (field ((s.die d).region (b / 4194304)).live.wear 16 16 ≤ ((s.die d).block b).erases + 1 →
            ((t.die d).block b).bad = true)) ∧
        Runs (.eraseDone d b false) s (fun t => ((t.die d).block b).bad = true ∧
          ((t.die d).block b).erases = ((s.die d).block b).erases)))

/-- Drains and epochs. A current value of one chunk, not yet draining, is programmed at the next place of its region's HOST
stream; so is a journal chunk of the records that both mirror copies hold. An epoch that is due records the counters and the
live content, with the chunks of its root programmed; it is complete once nothing below its SEQ is unverified, and the two
newest are retained. Which system chunks take slots is the model's choice (log 59). The place of a chunk is the model's
choice (log 61). -/
def Sys2Proof.Stmt.DrainsAndEpochs : Prop :=
  ∀ (s : State) (d : Nat), MediaUp s d →
    (∀ x e r slc new, (s.die d).extents.find? (fun y => y.ref == x.ref) = some x → x.current = true → x.draining = false →
      r = s.ownerRegion d x.owner → s.extentSlots d x = [e] → NextPlace s d r .host slc new → s.flushWaits = false →
      (s.fn (33 + d * 4 + r)).state ≠ .stopped →
      Runs (.valueDrain d x.ref slc) s (fun t =>
        (t.die d).slot new = some { e with seq := (s.die d).seqNext, slc := slc, verified := false, named := false } ∧
        (t.die d).extents = modFirst (fun y => y.ref == x.ref) (fun y => { y with draining := true }) (s.die d).extents ∧
        (∀ p, p ≠ new → (t.die d).slot p = (s.die d).slot p) ∧ (t.die d).map = (s.die d).map ∧ (t.die d).dir = (s.die d).dir)) ∧
    (∀ new rs slc, rs = journalFill chunkSize (s.die d).mirroredLog → rs ≠ [] →
      NextPlace s d ((s.die d).jnext % 4) .host slc new → s.flushWaits = false →
      (∀ j, j ∈ (s.die d).journal → (s.die d).journalBusy j.1 = false) →
      Runs (.journalDrain d) s (fun t => (t.die d).journal = (s.die d).journal ++ [((s.die d).jnext, rs)] ∧
        (t.die d).jnext = (s.die d).jnext + 1 ∧ (t.die d).log = (s.die d).log ∧ (t.die d).dir = (s.die d).dir ∧
        ∃ u, (t.die d).slot new = some u ∧ u.sys = true ∧ u.seq = (s.die d).seqNext)) ∧
    (∀ u roots, (s.die d).online = true → (s.die d).epochOpen = none →
      ((s.die d).epochDue = true ∨ (s.die d).epochAt + winDay ≤ s.clock.cycles) →
      (s.die d).appendSys s.geo (((s.die d).epochNo + 1) % 4) .copy ((upto rootChunks).map (fun i => sysSlot 3 i (s.die d).sysKey)) =
        some (u, roots) →
      Runs (.epochBegin d) s (fun t => (t.die d).epochDue = false ∧ (t.die d).epochAt = s.clock.cycles ∧
        (t.die d).epochs = (s.die d).epochs ∧ (t.die d).map = (s.die d).map ∧ (t.die d).dir = (s.die d).dir ∧
        ∃ e, (t.die d).epochOpen = some e ∧ e.num = (s.die d).epochNo + 1 ∧ e.seqStart = (s.die d).seqNext ∧ e.roots = roots ∧
          e.jStart = (s.die d).jnext ∧ e.commitEnd = (s.die d).commitEnd ∧ e.snap = s.snapshot d)) ∧
    (∀ e, (s.die d).epochOpen = some e →
      (∀ k, k ∈ (s.die d).slots → ∀ u, k.2 = some u → u.verified = true ∨ e.seqStart ≤ u.seq) →
      Runs (.epochComplete d) s (fun t => (t.die d).epochs = e :: (s.die d).epochs.take 1 ∧ (t.die d).epochOpen = none ∧
        (t.die d).dir = (s.die d).dir ∧ (t.die d).map = (s.die d).map ∧
        (∀ i, i ∈ (t.die d).images → i.die ≠ d ∧ i.epoch = e.num) ∧
        ∀ k, k ≠ d → t.die k = { s.die k with images := (t.die k).images }))

/-- Internal work of a region. RECLAIM_PASS, FOLD, STATIC_LEVELLING, REFRESH, REBUILD and SDISCARD_PURGE take the superblock
that their rules choose, when no work of a higher rank is ready. The valid chunk of the superblock taken is copied under its
owner's handle into the COPY stream, by STATIC_LEVELLING and SDISCARD_PURGE into the COLD stream, and the map changes only
when the copy is verified. The place of a chunk is the model's choice (log 61). -/
def Obligations.RegionWork : Prop :=
  ∀ (s : State) (d r k pca new : Nat) (e : Slot) (st : Stream), OneChunk s d r k st pca new e →
    (st = .copy → HostWhole s d r → (s.die d).slcOver r = true → (s.die d).oldestSlc r = some k → s.rankFree d r 5 = true →
      Runs (.fold d r) s (fun t => Copied s t d pca new e)) ∧
    (st = .copy → HostWhole s d r → (s.die d).reclaimNext s.geo r = some k → (s.die d).poolHigh s.geo r = true →
      s.rankFree d r (if (s.die d).poolLow s.geo r then 3 else 6) = true →
      Runs (.reclaimPass d r) s (fun t => Copied s t d pca new e)) ∧
    (st = .cold → ((s.die d).region r).levelling = true → (s.die d).levelNext r = some k → s.rankFree d r 7 = true →
      Runs (.staticLevelling d r) s (fun t => Copied s t d pca new e)) ∧
    (st = .copy → (s.die d).refreshNext r = some k → s.rankFree d r 2 = true →
      Runs (.refresh d r) s (fun t => Copied s t d pca new e)) ∧
    (st = .copy → (s.die d).rebuildNext r = some k → s.rankFree d r 1 = true →
      Runs (.rebuild d r) s (fun t => Copied s t d pca new e)) ∧
    (∀ x, st = .cold → (s.die d).super k = some x → x.closed = true → s.purgeNext d r = [k] → s.rankFree d r 4 = true →
      (∀ q, q < 4 → q ≠ r → s.purgeNext d q = []) →
      Runs (.sdiscardPurge d) s (fun t => Copied s t d pca new e))

/-- Patrol, compaction, the serial sweep. PATROL_READ reads the verified slot of the superblock whose patrol time is oldest
and sets its patrol time. MAP_COMPACTION moves a run to index 0 when a staged run has no room, with a RUNMOVE item, unless a
stream or a media slot holds it there; when every staged run has room it changes nothing. SERIAL_SWEEP copies a chunk left
under an old part handle under its owner's; with none left it drops the old origin entries and keeps the others. That a
command whose conditions do not hold changes nothing is the model's choice (log 1). -/
def Sys2Proof.Stmt.PatrolAndSweeps : Prop :=
  ∀ (s : State) (d : Nat), MediaUp s d →
    (∀ k x pca e, (s.die d).super k = some x → (s.die d).patrolNext x.region = some k → s.rankFree d x.region 8 = true →
      (s.die d).superSlots x = [(pca, e)] → (s.die d).slot pca = some e → e.verified = true → (s.die d).lunFree pca = true →
      (s.die d).erased (pcaChannel pca) (pcaPos pca) = false →
      Runs (.patrolRead d k []) s (fun t => (∃ y, (t.die d).super k = some y ∧ y.lastPatrol = s.now.toNat) ∧
        ((t.die d).block (pcaBlock pca)).reads = ((s.die d).block (pcaBlock pca)).reads + 1 ∧
        (t.die d).slots = (s.die d).slots ∧ (t.die d).map = (s.die d).map ∧ ∀ e, e ≠ d → t.die e = s.die e)) ∧
    ((∀ n, n ∈ s.stagedRuns d → (s.die d).runFits n = true) → Idle (.mapCompaction d) s) ∧
    (∀ n e m k, (s.die d).dir = [(n, e)] → (s.die d).puts = [] → (s.die d).map = [(e.first, m)] → e.live = true →
      chunksOf e.length = 1 → k ∈ s.stagedRuns d → (s.die d).runFits k = false →
      ((s.heldRuns d).contains e.first = true →
        Runs (.mapCompaction d) s (fun t => t = { s with dies := t.dies } ∧ ∀ e, t.die e = s.die e)) ∧
      (e.first ≠ 0 → (s.heldRuns d).contains e.first = false →
        Runs (.mapCompaction d) s (fun t => (t.die d).entry n = { e with first := 0 } ∧
          tabGet (fun _ => {}) (t.die d).map 0 = m ∧
          (∃ r, (t.die d).log = (s.die d).log ++ [r] ∧ r.items = [.runmove e.handle 0]) ∧
          t = { s with dies := t.dies } ∧ ∀ e, e ≠ d → t.die e = s.die e))) ∧
    ((s.die d).sweepDue = true →
      (∀ pca e slc new, (s.die d).sweepTodo = [(pca, e)] → (s.die d).sweepable pca = true →
        NextPlace s d (pcaChannel pca / 16) .copy slc new →
        Runs (.serialSweep d) s (fun t => Copied s t d pca new e ∧ t = { s with dies := t.dies })) ∧
      ((s.die d).sweepTodo = [] →
        Runs (.serialSweep d) s (fun t => (t.die d).sweepTo = 2 ^ 24 ∧ (t.die d).slots = (s.die d).slots ∧
          (∀ o, o ∈ (t.die d).originLog → ∀ u, u ∈ o.2 → 2 ^ 24 ≤ u.1) ∧
          (∀ o u, o ∈ (s.die d).originLog → u ∈ o.2 → 2 ^ 24 ≤ u.1 → ∃ p, p ∈ (t.die d).originLog ∧ p.1 = o.1 ∧ u ∈ p.2) ∧
          t = { s with dies := t.dies } ∧ ∀ e, e ≠ d → t.die e = s.die e))) ∧
    ((s.die d).sweepDue = false → Idle (.serialSweep d) s)

/-- Drains, epochs, patrol and sweeps. `Stmt.DrainsAndEpochs` and `Stmt.PatrolAndSweeps` both hold. -/
def Obligations.DrainsEpochsSweeps : Prop := Stmt.DrainsAndEpochs ∧ Stmt.PatrolAndSweeps

/-! ## Functions and registers -/

/-- FN_CTRL and the end of a stop. While the package serves, ENABLE 0 of a RUNNING function begins its stop at the last
commit number assigned, of a STARTING one it is pending; otherwise it answers REJECTED. ENABLE 1 of a STOPPED one begins its
restart, of a STOPPING one it is pending. A stop ends once the function is quiet and each of its arbiters, shut by then, is
drained. That a command whose conditions do not hold changes nothing is the model's choice (log 1). That the write takes
effect at the last commit number assigned is the model's choice (log 29). The status REJECTED is the model's reading (log
70). That the row comes twice when a grant is held is the model's choice (log 73). -/
def Sys2Proof.Stmt.FunctionStops : Prop :=
  (∀ (s : State) (n : Nat) (v : W32), n < 51 → s.mode.mode ≠ .reset →
    ((s.fn n).state = .running → v.getLsbD 0 = false → s.mode.mode.serving = true →
      Runs (.fnCtrlEnable n v) s (fun t => t.answer = { status := 0 } ∧ (t.fn n).state = .stopping ∧
        (t.fn n).stopAt = s.commitNow ∧ (t.fn n).enable = false ∧ (t.fn n).restartPending = false ∧
        (∀ m, m ≠ n → t.fn m = s.fn m) ∧ (n = 0 → t.mode.mode = .reprogram) ∧ (n ≠ 0 → t.mode.mode = s.mode.mode ∧
          Raised s t 0x0012 0xB000 (s.commitNow % 2 ^ 32) (s.commitNow / 2 ^ 32) n 0) ∧
        t = { s with mode := t.mode, recorder := t.recorder, answer := t.answer })) ∧
    ((s.fn n).state = .running → v.getLsbD 0 = true →
      Runs (.fnCtrlEnable n v) s (fun t => t.answer = { status := 0 } ∧
        t.fn n = { s.fn n with enable := true, retrain := v.getLsbD 1 } ∧ (∀ m, m ≠ n → t.fn m = s.fn m))) ∧
    ((s.fn n).state = .stopped → v.getLsbD 0 = true →
      Runs (.fnCtrlEnable n v) s (fun t => t.answer = { status := 0 } ∧ (t.fn n).state = .starting ∧
        (t.fn n).startAt = s.commitNow ∧ (∀ m, m ≠ n → t.fn m = s.fn m))) ∧
    ((s.fn n).state = .stopping → v.getLsbD 0 = true →
      Runs (.fnCtrlEnable n v) s (fun t => (t.fn n).state = .stopping ∧ (t.fn n).restartPending = true ∧
        ((s.fn n).restartPending = false → (t.fn n).startAt = s.commitNow))) ∧
    ((s.fn n).state = .starting → v.getLsbD 0 = false → s.mode.mode.serving = true →
      Runs (.fnCtrlEnable n v) s (fun t => (t.fn n).state = .starting ∧ (t.fn n).stopPending = true)) ∧
    (v.getLsbD 0 = false → s.mode.mode.serving = false →
      exec (.fnCtrlEnable n v) s = .next { s with answer := { status := 6 } })) ∧
  (∀ (s : State) (n : Nat), n < 51 → ((s.fn n).state ≠ .stopping ∨ s.fnQuiet n = false) → Idle (.fnStopComplete n) s) ∧
  (∀ (s : State) (n : Nat), n < 51 → (s.fn n).state = .stopping → s.fnQuiet n = true →
    ((n = 0 ∨ ∀ p, p ∈ fnArbs n → (s.arb p).granted = false) →
      Runs (.fnStopComplete n) s (fun t => (∀ m, m ≠ n → t.fn m = s.fn m) ∧
        ((s.fn n).restartPending = false → (t.fn n).state = .stopped ∧ t = { s with mode := t.mode, arbs := t.arbs }) ∧
        ((s.fn n).restartPending = true → (t.fn n).state = .starting) ∧
        (n ≠ 0 → ∀ p, p ∈ fnArbs n → (t.arb p).shut = true))) ∧
    (n ≠ 0 → (∃ p, p ∈ fnArbs n ∧ (s.arb p).granted = true) →
      Runs (.fnStopComplete n) s (fun t => t.mode = s.mode ∧ (∀ p, p ∈ fnArbs n → (t.arb p).shut = true) ∧
        (∀ p, ¬ p ∈ fnArbs n → t.arb p = s.arb p) ∧ t = { s with arbs := t.arbs })))

/-- The end of a restart. The function runs again with the settings written while it was stopped: FAB_CTRL of the package, a
port group's and its MACs', a region's, the handler slots staged. A region's arbiters open with their counts at 0, the
selection banks' open. A stop that is pending begins as the restart ends. A PACKAGE restart waits until its arbiters are
drained. That a command whose conditions do not hold changes nothing is the model's choice (log 1). The order of a restart
is the model's reading (log 72). -/
def Sys2Proof.Stmt.FunctionRestarts : Prop :=
  ∀ (s : State) (n : Nat), n < 51 →
    ((s.fn n).state ≠ .starting → Idle (.fnRestartComplete n) s) ∧
    ((s.fn n).state = .starting → (s.fn n).stopPending = false →
      (n = 0 → (∀ p, p ∈ fnArbs 0 → (s.arb p).granted = false) →
        Runs (.fnRestartComplete n) s (fun t => (t.fn 0).state = .running ∧ t.fab.ctrlLive = s.fab.ctrl ∧
          t.mode.mode ≠ .reprogram)) ∧
      (n = 0 → (∃ p, p ∈ fnArbs 0 ∧ (s.arb p).granted = true) →
        Runs (.fnRestartComplete n) s (fun t => (t.fn 0).state = .starting ∧ ∀ p, p ∈ fnArbs 0 → (t.arb p).shut = true)) ∧
      (1 ≤ n → n ≤ 32 → Runs (.fnRestartComplete n) s (fun t => (t.fn n).state = .running ∧
        (t.group (n - 1)).live = (s.group (n - 1)).cfg ∧
        ∀ k, k < 4 → (t.mac (4 * (n - 1) + k)).live = (s.mac (4 * (n - 1) + k)).cfg)) ∧
      (33 ≤ n → n ≤ 48 → (s.fn n).retrain = false →
        Runs (.fnRestartComplete n) s (fun t => (t.fn n).state = .running ∧
          ((t.die ((n - 33) / 4)).region ((n - 33) % 4)).live = ((s.die ((n - 33) / 4)).region ((n - 33) % 4)).cfg ∧
          ∀ p k, p ∈ fnArbs n → Wf.requester p k = true → (t.arb p).shut = false ∧ ((t.arb p).req p k).count = 0 ∧
            ((t.arb p).req p k).quotaLive = ((s.arb p).req p k).quota)) ∧
      (n = 49 → s.handlersFree = true → (s.restartHandlers (s.fn 49).startAt).isSome = true →
        Runs (.fnRestartComplete n) s (fun t => (t.fn 49).state = .running ∧ t.eng.hstaged = [])) ∧
      (n = 50 → Runs (.fnRestartComplete n) s (fun t => (t.fn 50).state = .running ∧
        ∀ p, p ∈ fnArbs 50 → (t.arb p).shut = false))) ∧
    ((s.fn n).state = .starting → (s.fn n).stopPending = true → s.fnMayRun n = true →
      (n = 0 → ∀ p, p ∈ fnArbs 0 → (s.arb p).granted = false) →
      Runs (.fnRestartComplete n) s (fun t => (t.fn n).state = .stopping ∧ (t.fn n).stopAt = (s.fn n).nextStop))

/-- Functions stop and restart. `Stmt.FunctionStops` and `Stmt.FunctionRestarts` both hold. -/
def Obligations.FunctionControl : Prop := Stmt.FunctionStops ∧ Stmt.FunctionRestarts

/-- Triggered programs. With PERIOD 0 nothing runs. A slot with a program starts on an idle management engine of its die; an
empty slot, and one whose program still runs, is skipped and counted up to 255. That a command whose conditions do not hold
changes nothing is the model's choice (log 1). -/
def Sys2Proof.Stmt.TriggeredPrograms : Prop :=
  ∀ (s : State) (d n : Nat), d < 5 → 32 ≤ n → n < 64 →
    ((s.trig d n).period = 0 → Idle (.mpTrigRun d n) s) ∧
    ((s.trig d n).period ≠ 0 → s.mgmtUp d = true → s.mode.mode ≠ .holdup →
      (s.prog d n = none →
        exec (.mpTrigRun d n) s = .next (s.modTrig d n (fun k => { k with skips := min 255 (k.skips + 1) }))) ∧
      (∀ p, s.prog d n = some p → s.progRuns d n = true →
        exec (.mpTrigRun d n) s = .next (s.modTrig d n (fun k => { k with skips := min 255 (k.skips + 1) }))) ∧
      (∀ p, s.prog d n = some p → s.inv (.mgmt d) = none → (d ≠ 0 ∨ s.eng.treqs = []) →
        Runs (.mpTrigRun d n) s (fun t => t = { s with eng := t.eng } ∧ ∃ v, t.inv (.mgmt d) = some v ∧
          v.work = .program n none ∧ v.image = .words p.words ∧ v.budget = p.budget ∧ v.pc = 0 ∧ v.wait = .none ∧
          ∀ k, v.g k = 0)))

/-- Single writes with effects. TSQ_POP moves the oldest timestamp into TSQ_DATA or gives VALID 0; TB_STEP_HI adds its
offset with TB_STEP_LO to the time base; WAITLIMIT takes 1 to 60,000; ALERT_MASK drives ALERT_N; no unit, no register and a
package in RESET answer NOUNIT, NOADDR and UNAVAIL and change nothing. That the row's answer stands in a field of its own is
the model's choice (log 5). That the step is applied at once is the model's choice (log 66). -/
def Sys2Proof.Stmt.SingleWrites : Prop :=
  (∀ (s : State) (m : Nat) (v : W32), m < 128 → s.mode.mode ≠ .reset →
    (s.macPresent m = false → exec (.tsqPop m v) s = .next { s with answer := { status := 3 } }) ∧
    (s.macPresent m = true → v.getLsbD 0 = false → exec (.tsqPop m v) s = .next { s with answer := { status := 0 } }) ∧
    (s.macPresent m = true → v.getLsbD 0 = true →
      Runs (.tsqPop m v) s (fun t => t.answer = { status := 0 } ∧ (∀ k, k ≠ m → t.mac k = s.mac k) ∧
        ((s.mac m).tsq = [] → t.mac m = { s.mac m with tsqData := 0 }) ∧
        (∀ e rest, (s.mac m).tsq = e :: rest → t.mac m = { s.mac m with tsqData := e, tsq := rest }) ∧
        t = { s with net := t.net, answer := t.answer }))) ∧
  (∀ (s : State) (v : W32), s.mode.mode ≠ .reset →
    exec (.tbStepHi v) s = .next { s with
      clock := { s.clock with tb := s.clock.tb + BitVec.ofNat 96 ((v.toNat * 2 ^ 32 + s.clock.stepLo.toNat) * 2 ^ 32) }
      answer := { status := 0 } }) ∧
  (∀ (s : State) (v : W32), s.mode.mode ≠ .reset →
    (1 ≤ field v 0 16 → field v 0 16 ≤ 60000 →
      exec (.registerWrite 0 0x014 v) s = .next { s with
        mode := { s.mode with waitLimit := v &&& 0xFFFF#32 }, answer := { status := 0 } }) ∧
    ((field v 0 16 = 0 ∨ 60000 < field v 0 16) → exec (.registerWrite 0 0x014 v) s = .next { s with answer := { status := 6 } }) ∧
    Runs (.registerWrite 0 0x020 v) s (fun t => t.mode.alertMask = (v.setWidth 7 &&& 0x5E#7) ∧ t.answer = { status := 0 } ∧
      t.pins.alert = decide (s.mode.alertCause &&& ~~~t.mode.alertMask ≠ 0))) ∧
  (∀ (s : State) (place : W32) (off : Nat) (v : W32), off < 65536 →
    (Wf.place (place.toNat % 0x100000) = false →
      exec (.registerWrite place off v) s = .next { s with answer := { status := 1 } }) ∧
    (Wf.place (place.toNat % 0x100000) = true → s.regValue (place.toNat % 0x100000) off = none →
      exec (.registerWrite place off v) s = .next { s with answer := { status := 2 } }) ∧
    (Wf.place (place.toNat % 0x100000) = true → s.regValue (place.toNat % 0x100000) off ≠ none → s.mode.mode = .reset →
      exec (.registerWrite place off v) s = .next { s with answer := { status := 3 } }))

/-- Counter reads. A read of an RC counter answers its value and clears it, a 64-bit one copying its high half; a read of a
_LO register copies the high half of what it shows; neither changes anything else. That the row's answer stands in a field
of its own is the model's choice (log 5). -/
def Sys2Proof.Stmt.CounterReads : Prop :=
  ∀ (s : State), s.mode.mode ≠ .reset →
    (∀ i, i < 6 → Runs (.rcCounterRead 0 (0x050 + 8 * i)) s (fun t =>
      t.answer = { status := 0, value := w32 (tabGet (fun _ => 0) s.fab.counters i % 2 ^ 32) } ∧
      tabGet (fun _ => 0) t.fab.counters i = 0 ∧
      tabGet (fun _ => 0) t.fab.hi i = w32 (tabGet (fun _ => 0) s.fab.counters i / 2 ^ 32 % 2 ^ 32) ∧
      (∀ j, j ≠ i → tabGet (fun _ => 0) t.fab.counters j = tabGet (fun _ => 0) s.fab.counters j) ∧
      t = { s with fab := { s.fab with counters := t.fab.counters, hi := t.fab.hi }, answer := t.answer })) ∧
    exec (.rcCounterRead 0x1700#32 0x00C) s = .next { s with
      recorder := { s.recorder with lostFifo := 0 }
      answer := { status := 0, value := w32 (min s.recorder.lostFifo (2 ^ 32 - 1)) } } ∧
    exec (.lowRegisterRead 0x1900#32 0x008) s = .next { s with
      clock := { s.clock with nowHi := w32 (s.now.toNat / 2 ^ 32 % 2 ^ 32) }
      answer := { status := 0, value := w32 (s.now.toNat % 2 ^ 32) } } ∧
    exec (.lowRegisterRead 0x1600#32 0x000) s = .next { s with
      wot := { s.wot with seqHi := w32 (s.wot.lastCommit / 2 ^ 32 % 2 ^ 32) }
      answer := { status := 0, value := w32 (s.wot.lastCommit % 2 ^ 32) } }

/-- Single register accesses. `Stmt.SingleWrites` and `Stmt.CounterReads` both hold. -/
def Obligations.SingleAccesses : Prop := Stmt.SingleWrites ∧ Stmt.CounterReads

/-- MASTERPREF and IMPORTDIS. A write of OTP_CFG that changes the preference uses one count of it, a first IMPORTDIS 1 the
one of that; each records OTP_CHANGE. A change with no count left answers EXHAUSTED and nothing changes; a write of the
values that stand uses no count. That the row's answer stands in a field of its own is the model's choice (log 5). That the
refused write of IMPORTDIS 0 answers EXHAUSTED is the model's reading (log 19). That the write takes effect at the last
commit number assigned is the model's choice (log 29). That the row writes its whole register is the model's choice (log
68). -/
def Obligations.OtpConfigWrites : Prop :=
  ∀ (s : State) (v : W32) (c : Instr), (c = .masterpref v ∨ c = .importdis v) → s.mode.mode ≠ .reset →
    (field v 0 2 = s.otp.masterPref → v.getLsbD 2 = s.otp.importDis →
      exec c s = .next { s with answer := { status := 0 } }) ∧
    (field v 0 2 ≠ s.otp.masterPref → v.getLsbD 2 = s.otp.importDis → s.otp.leftMasterPref ≠ 0 →
      Runs c s (fun t => t.otp = { s.otp with masterPref := field v 0 2, leftMasterPref := s.otp.leftMasterPref - 1 } ∧
        Raised s t 0x0014 0xD800 (s.commitNow % 2 ^ 32) (s.commitNow / 2 ^ 32) 5 (s.otp.leftMasterPref - 1) ∧
        t = { s with otp := t.otp, recorder := t.recorder, answer := { status := 0 } })) ∧
    (field v 0 2 ≠ s.otp.masterPref → s.otp.leftMasterPref = 0 → exec c s = .next { s with answer := { status := 5 } }) ∧
    (field v 0 2 = s.otp.masterPref → v.getLsbD 2 = true → s.otp.importDis = false → s.otp.leftImportDis ≠ 0 →
      Runs c s (fun t => t.otp = { s.otp with importDis := true, leftImportDis := s.otp.leftImportDis - 1 } ∧
        Raised s t 0x0014 0xD800 (s.commitNow % 2 ^ 32) (s.commitNow / 2 ^ 32) 6 (s.otp.leftImportDis - 1) ∧
        t = { s with otp := t.otp, recorder := t.recorder, answer := { status := 0 } })) ∧
    (field v 0 2 ≠ s.otp.masterPref → v.getLsbD 2 = true → s.otp.importDis = false → s.otp.leftMasterPref ≠ 0 →
      s.otp.leftImportDis ≠ 0 → Runs c s (fun t => t.answer = { status := 0 } ∧
        t.otp = { s.otp with masterPref := field v 0 2, leftMasterPref := s.otp.leftMasterPref - 1, importDis := true,
                             leftImportDis := s.otp.leftImportDis - 1 })) ∧
    (v.getLsbD 2 ≠ s.otp.importDis → s.otp.leftImportDis = 0 → exec c s = .next { s with answer := { status := 5 } })

/-! ## The fabric -/

namespace Sys2Proof.Stmt

/-- The oldest RFP message waiting is m, of a type, and rest the others. -/
def Arrived (s : State) (type : Nat) (m : Rfp) (rest : List Rfp) : Prop := s.fab.inbox = m :: rest ∧ m.type = type

/-- A message was consumed and nothing else changed. -/
def Consumed (i : Instr) (s : State) (rest : List Rfp) : Prop := exec i s = .next { s with fab := { s.fab with inbox := rest } }

/-- Two fabric blocks agree on the generation, the record and what is proposed. -/
def SameMembership (a b : Fab) : Prop :=
  a.gen = b.gen ∧ a.older = b.older ∧ a.rec0 = b.rec0 ∧ a.rec1 = b.rec1 ∧ a.proposal = b.proposal ∧ a.pends = b.pends

/-- A forwarding with the response octets it has collected. -/
def withRsp (f : Fwd) (o : Octets) : Fwd := { f with rsp := o }

end Sys2Proof.Stmt

/-- Neighbours and advertisements. HELLO, with the next own SEQ, joins the transmit queue of a fabric MAC, or waits for room
behind it; a received one makes its sender heard and, when it lists us, up. NEIGHBOR_DOWN takes a neighbour down. A change
of a neighbour's state, and LSA_TIMER, originate an LSA of the next number. An LSA newer than that stored for its origin
replaces it, any other is dropped. That a command whose conditions do not hold changes nothing is the model's choice (log
1). Where a frame waits for room is the model's choice (log 36). -/
def Obligations.NeighboursAndLsas : Prop :=
  (∀ (s : State) (m : Nat), m < 128 →
    (s.fabricMac m = false → Idle (.helloTimer m) s) ∧
    (s.fabricMac m = true → Runs (.helloTimer m) s (fun t =>
      t = { s with fab := { s.fab with ownSeq := s.fab.ownSeq + 1 }, net := t.net } ∧
      (∀ k, k ≠ m → t.mac k = s.mac k) ∧ ∃ f, ∀ q, q = rfpQueue (s.mac m).live 1 →
        if s.txRoom m q f.octets.length && (s.mac m).waiting.all (fun w => decide (w.1 ≠ q)) then
          (t.mac m).queue q = (s.mac m).queue q ++ [f] ∧ (t.mac m).waiting = (s.mac m).waiting
        else (t.mac m).queue q = (s.mac m).queue q ∧ (t.mac m).waiting = (s.mac m).waiting ++ [(q, f)]))) ∧
  (∀ (s : State) (uid : BitVec 64) (m : Nat), m < 128 →
    (s.nbr? uid m = none → Idle (.neighborDown uid m) s) ∧
    (∀ n, s.nbr? uid m = some n → Runs (.neighborDown uid m) s (fun t => SettingsKept s t ∧
      (∃ k, t.nbr? uid m = some k ∧ k.isUp = false ∧ k.heard = false ∧ k.hearsUs = false) ∧
      (n.isUp = true → t.fab.lsaSeq = s.fab.lsaSeq + 1) ∧ (n.isUp = false → t.fab.lsaSeq = s.fab.lsaSeq)))) ∧
  (∀ s : State, (s.mode.mode.trains = false → Idle .lsaTimer s) ∧
    (s.mode.mode.trains = true → Runs .lsaTimer s (fun t => t.fab.lsaSeq = s.fab.lsaSeq + 1 ∧
      SameMembership t.fab s.fab ∧ t = { s with fab := t.fab, net := t.net }))) ∧
  (∀ (s : State) (m : Rfp) (rest : List Rfp), Arrived s 1 m rest → ∀ lists, lists = decide (∃ k, k < beAt m.body 1 2 ∧
      beAt m.body (3 + 8 * k) 8 = Config.uid.toNat) →
    Runs .hello s (fun t => SettingsKept s t ∧ t.fab.inbox = rest ∧ (∃ k, t.nbr? m.srcUid m.mac = some k ∧ k.heard = true ∧
      k.isUp = lists ∧ k.eth = m.eth ∧ k.ip = m.ip))) ∧
  (∀ (s : State) (m : Rfp) (rest : List Rfp) (l : Lsa), Arrived s 2 m rest → l = lsaOfBody m.body →
    ((l.origin = Config.uid ∨ ∃ k, s.fab.lsdb.find? (fun k => k.origin == l.origin) = some k ∧ l.seq ≤ k.seq) →
      Consumed .lsa s rest) ∧
    (l.origin ≠ Config.uid → (∀ k, s.fab.lsdb.find? (fun k => k.origin == l.origin) = some k → k.seq < l.seq) →
      Runs .lsa s (fun t => SettingsKept s t ∧ t.fab.inbox = rest ∧
        t.fab.lsdb = s.fab.lsdb.filter (fun k => k.origin != l.origin) ++ [l])))

/-- Membership. A coordinator proposes the next generation and writes its own vote first; a proposal not yet committed that
no longer names what it would propose now gives way, with its votes under the same GEN. A package votes for a newer
generation of the coordinator it sees once its record holds the vote. A proposal with more than half of the last
generation's members commits. A COMMIT that names the package is written, then adopted. That a command whose conditions do
not hold changes nothing is the model's choice (log 1). The fabric's choices of log 93 are the model's. -/
def Obligations.MembershipMessages : Prop :=
  (∀ (s : State),
    ((s.nextGen = none ∨ (∃ p, s.fab.proposal = some p ∧ (p.committed = true ∨ s.nextGen = some p.gen)) ∨
      s.coordinator ≠ Config.uid ∨ s.mode.mode.trains = false) →
      Idle .proposeStart s) ∧
    (∀ g, s.nextGen = some g → s.fab.proposal = none → s.coordinator = Config.uid → s.mode.mode.trains = true →
      Runs .proposeStart s (fun t => t.fab.proposal = some { gen := g, votes := [] } ∧
        t.fab.pends = s.fab.pends ++ [.vote g.num Config.uid] ∧ t.fab.gen = s.fab.gen ∧
        t = { s with fab := t.fab, net := t.net })) ∧
    (∀ g p, s.nextGen = some g → s.fab.proposal = some p → p.committed = false → p.gen ≠ g → s.coordinator = Config.uid →
      s.mode.mode.trains = true →
      Runs .proposeStart s (fun t => t.fab.gen = s.fab.gen ∧ ∃ q, t.fab.proposal = some q ∧ q.gen = g ∧
        q.votes = if p.gen.num = g.num then p.votes else [])) ∧
    (s.fab.proposal = none → Idle .proposeResend s) ∧
    (∀ p, s.fab.proposal = some p → p.committed = false → s.mode.mode.trains = true →
      Runs .proposeResend s (fun t => SameMembership t.fab s.fab ∧
        t.fab.ownSeq = s.fab.ownSeq + (p.gen.members.filter (fun m => m.uid != Config.uid)).length ∧
        t = { s with fab := t.fab, net := t.net }))) ∧
  (∀ (s : State) (m : Rfp) (rest : List Rfp) (g : Gen) (coord : BitVec 64), Arrived s 3 m rest → g = genOfBody m.body →
    coord = BitVec.ofNat 64 (beAt m.body 16 8) →
    ((s.dbStable = false ∨ coord ≠ s.coordinator ∨ coord ≠ m.srcUid ∨ (∃ k, s.lastGen = some k ∧ g.num ≤ k.num)) →
      Consumed .propose s rest) ∧
    (s.dbStable = true → coord = s.coordinator → coord = m.srcUid → (∀ k, s.lastGen = some k → k.num < g.num) →
      (s.fabRec.getD emptyRec).voteGen < g.num → s.fab.pends = [] →
      exec .propose s = .next { s with fab := { s.fab with inbox := rest, pends := [.vote g.num coord] } })) ∧
  (∀ (s : State) (m : Rfp) (rest : List Rfp) (p : Proposal) (g : Gen), Arrived s 4 m rest → s.fab.proposal = some p →
    s.lastGen = some g → beAt m.body 8 8 = p.gen.num → beAt m.body 16 8 = Config.uid.toNat →
    (m.srcUid ∈ p.votes → Consumed .vote s rest) ∧
    (¬ m.srcUid ∈ p.votes → Runs .vote s (fun t => SettingsKept s t ∧ t.fab.inbox = rest ∧
      t.fab.proposal = some ⟨p.gen, p.votes ++ [m.srcUid], p.committed || majority g (p.votes ++ [m.srcUid])⟩ ∧
      (p.committed = false → majority g (p.votes ++ [m.srcUid]) = true →
        t.fab.pends = s.fab.pends ++ [.adopt p.gen])))) ∧
  (∀ (s : State) (m : Rfp) (rest : List Rfp) (g : Gen), Arrived s 5 m rest → g = genOfBody m.body →
    (∀ k, s.lastGen = some k → k.num < g.num) → g.num ≠ 0 →
    ((∀ k, k ∈ g.members → k.uid ≠ Config.uid) → Consumed .commit s rest) ∧
    ((∃ k, k ∈ g.members ∧ k.uid = Config.uid) →
      exec .commit s = .next { s with fab := { s.fab with inbox := rest, pends := s.fab.pends ++ [.adopt g] } })) ∧
  (∀ (s : State), (s.fab.pends = [] → Idle .fabricRecordWritten s) ∧
    (∀ n coord rest, s.fab.pends = .vote n coord :: rest →
      Runs .fabricRecordWritten s (fun t => ∃ r, t.fabRec = some r ∧ r.voteGen = n ∧ r.voteCoord = coord ∧
        r.wseq = (s.fabRec.getD emptyRec).wseq + 1 ∧ r.gen = (s.fabRec.getD emptyRec).gen ∧ t.fab.gen = s.fab.gen ∧
        t.otp = s.otp ∧ t.dies = s.dies)) ∧
    (∀ g rest m, s.fab.pends = .adopt g :: rest → g.members.find? (fun k => k.uid == Config.uid) = some m →
      Runs .fabricRecordWritten s (fun t => t.fab.gen = some g ∧ t.fab.older = s.gens ∧ t.fab.assigned = true ∧
        t.fab.addr = m.addr ∧ t.fab.proposal = none ∧ t.otp = s.otp ∧ ∃ r, t.fabRec = some r ∧ r.gen = some g ∧
          r.addr = m.addr ∧ r.assigned = true)))

/-- Forwarded commands. The octets of a FWD are collected; a whole one takes the next commit number here. A response from
the executor is collected until its last piece, which ends the forwarding of a read. SYNC tells a forwarder that its write
is flushed, once it is. That a command whose conditions do not hold changes nothing is the model's choice (log 1). -/
def Sys2Proof.Stmt.ForwardingMessages : Prop :=
  (∀ (s : State) (m : Rfp) (rest : List Rfp), Arrived s 6 m rest →
    s.fab.fwdIn.find? (fun f => f.1 == m.srcUid && f.2.1 == beAt m.body 0 8) = none →
    ((m.body.drop 18).length < beAt m.body 14 4 → exec .fwd s = .next { s with fab := { s.fab with
      inbox := rest
      fwdIn := s.fab.fwdIn.filter (fun f => !(f.1 == m.srcUid && f.2.1 == beAt m.body 0 8)) ++
        [(m.srcUid, beAt m.body 0 8, m.body.drop 18)] } }) ∧
    (beAt m.body 14 4 ≤ (m.body.drop 18).length → s.wot.resumed = true → s.mode.mode.serving = true →
      s.wot.outstanding < 1048576 → s.reqHolds = false →
      Runs .fwd s (fun t => t.wot.lastCommit = s.wot.lastCommit + 1 ∧ t.fab.inbox = rest ∧ SettingsKept s t)) ∧
    (beAt m.body 14 4 ≤ (m.body.drop 18).length → s.wot.resumed = false → Idle .fwd s)) ∧
  (∀ (s : State) (m : Rfp) (rest : List Rfp), Arrived s 7 m rest →
    (s.fab.fwds.find? (fun f => f.commit == beAt m.body 0 8 && f.uid == m.srcUid && !f.ended) = none →
      Consumed .fwdrsp s rest) ∧
    (∀ f, s.fab.fwds.find? (fun f => f.commit == beAt m.body 0 8 && f.uid == m.srcUid && !f.ended) = some f →
      (beAt m.body 12 1 = 0 → exec .fwdrsp s = .next { s with fab := { s.fab with
        inbox := rest
        fwds := modFirst (fun k => k == f) (fun k => Stmt.withRsp k (f.rsp ++ m.body.drop 13)) s.fab.fwds } }) ∧
      (∀ c, beAt m.body 12 1 ≠ 0 → s.cmd? (beAt m.body 0 8) = some c → clsWrites c.entry.cls = false →
        Runs .fwdrsp s (fun t => t.fab.fwds = s.fab.fwds.filter (fun k => k != f) ∧ t.fab.inbox = rest ∧
          SettingsKept s t)))) ∧
  (∀ (s : State) (m : Rfp) (rest : List Rfp), Arrived s 11 m rest →
    (beAt m.body 0 1 ≠ 0 → exec .sync s = .next { s with fab := { s.fab with
      inbox := rest, fwds := s.fab.fwds.filter (fun f => !(f.commit == beAt m.body 1 8 && f.uid == m.srcUid)) } }) ∧
    (beAt m.body 0 1 = 0 → rest = [] →
      (∃ n, s.doneCommit m.srcUid (beAt m.body 1 8) = some n ∧ s.writeFlushed n = false) → Idle .sync s) ∧
    (beAt m.body 0 1 = 0 → (∀ n, s.doneCommit m.srcUid (beAt m.body 1 8) = some n → s.writeFlushed n = true) →
      Runs .sync s (fun t => t.fab.inbox = rest ∧ (t.peer m.srcUid).txSeq = (s.peer m.srcUid).txSeq + 1 ∧
        (t.peer m.srcUid).unacked = (s.peer m.srcUid).unacked ++
          [((s.peer m.srcUid).txSeq, 11, [1#8] ++ beOctets 8 (beAt m.body 1 8))] ∧
        t = { s with fab := t.fab, net := t.net })))

/-- Replication and the streams. A record under another generation is counted and answered STALEGEN, one of a region not
served NOTSERVING, any other is prepared. An apply mark sends what is owed; PREPARED ends the wait for that replica. The end
of the last copy sets FILLDONE, which an LSA states, unless the package is found in a minority. A bucket with nothing
prepared resolves at once. An ACK takes the message it covers; a retransmission timeout counts. That a command whose
conditions do not hold changes nothing is the model's choice (log 1). The layout of the record's body is the model's (log
17). The moment the counter counts is the model's (log 51). -/
def Sys2Proof.Stmt.ReplicationMessages : Prop :=
  (∀ (s : State) (m : Rfp) (rest : List Rfp) (a : Actor), Arrived s 8 m rest → beAt m.body 18 2 ≠ 0 → beAt m.body 18 2 ≠ 0xFFFF →
    a = s.recordActor 0 (preparedOf m.srcUid m.body).nsid (preparedOf m.srcUid m.body).record [] →
    (beAt m.body 0 8 ≠ s.genNo → Runs .repl s (fun t => t.fab.inbox = rest ∧ t.fab.prepared = s.fab.prepared ∧
      tabGet (fun _ => 0) t.fab.counters 5 = (tabGet (fun _ => 0) s.fab.counters 5 + 1) % 2 ^ 64 ∧
      (t.peer m.srcUid).unacked = (s.peer m.srcUid).unacked ++
        [((s.peer m.srcUid).txSeq, 9, beOctets 8 (beAt m.body 0 8) ++ beOctets 8 (beAt m.body 8 8) ++ [1#8])] ∧ t = { s with fab := t.fab, net := t.net })) ∧
    (beAt m.body 0 8 = s.genNo → s.ownServe.getLsbD (regionOf a.stemHash) = false →
      Runs .repl s (fun t => t.fab.inbox = rest ∧ t.fab.prepared = s.fab.prepared ∧
        (t.peer m.srcUid).unacked = (s.peer m.srcUid).unacked ++
          [((s.peer m.srcUid).txSeq, 9, beOctets 8 (beAt m.body 0 8) ++ beOctets 8 (beAt m.body 8 8) ++ [2#8])] ∧
        t = { s with fab := t.fab, net := t.net })) ∧
    (beAt m.body 0 8 = s.genNo → s.ownServe.getLsbD (regionOf a.stemHash) = true →
      Runs .repl s (fun t => t.fab.inbox = rest ∧
        t.fab.prepared = s.fab.prepared ++ [{ preparedOf m.srcUid m.body with die := a.die }] ∧
        t = { s with fab := t.fab, net := t.net }))) ∧
  (∀ (s : State) (m : Rfp) (rest : List Rfp) (w : WriteWait), Arrived s 9 m rest → s.fab.waits = [w] →
    w.commit = beAt m.body 8 8 →
    (¬ m.srcUid ∈ w.waiting → Consumed .replack s rest) ∧
    (m.srcUid ∈ w.waiting → beAt m.body 16 1 ≠ 1 → w.waiting.filter (fun u => u != m.srcUid) ≠ [] →
      exec .replack s = .next { s with fab := { s.fab with
        inbox := rest, waits := [{ w with waiting := w.waiting.filter (fun u => u != m.srcUid) }] } }) ∧
    (∀ c, m.srcUid ∈ w.waiting → beAt m.body 16 1 = 1 → s.cmd? w.commit = some c →
      Runs .replack s (fun t => t.fab.waits = [] ∧ t.fab.inbox = rest ∧ SettingsKept s t))) ∧
  (∀ (s : State) (uid : BitVec 64), Runs (.applyMark uid) s (fun t =>
    t.fab.marks = s.fab.marks.filter (fun e => e.1 != uid) ∧
    (t.peer uid).txSeq = (s.peer uid).txSeq + (s.fab.marks.filter (fun e => e.1 == uid)).length ∧
    t = { s with fab := t.fab, net := t.net })) ∧
  (∀ (s : State) (m : Rfp) (rest : List Rfp), Arrived s 10 m rest →
    ((beAt m.body 2 1 = 0xFF ∧ ∀ d, d < 4 → (s.die d).dir = []) ∨ beAt m.body 2 1 = 0xFE) → s.wot.resumed = true → s.reqHolds = false →
    Runs .copy s (fun t => t.fab.inbox = rest ∧ t.fab.fillFrom = s.fab.fillFrom.filter (fun k => k != m.srcUid) ∧
      (s.fab.fillFrom = [m.srcUid] → t.fab.lsaSeq = s.fab.lsaSeq + 1 ∧
        ((∀ g, s.lastGen = some g → s.fab.standalone = true ∨ majority g s.reachable = true) → t.fab.fillDone = true)) ∧
      SettingsKept s t)) ∧
  (∀ (s : State) (b : Nat), b < 65536 →
    (¬ b ∈ s.fab.unresolved → Idle (.stemResolve b) s) ∧
    (b ∈ s.fab.unresolved → s.fab.prepared = [] → exec (.stemResolve b) s = .next { s with
      fab := { s.fab with unresolved := s.fab.unresolved.filter (fun k => k != b) } })) ∧
  (∀ (s : State) (m : Rfp) (rest : List Rfp) (e : Nat × Nat × Octets), Arrived s 12 m rest →
    (s.peer m.srcUid).unacked = [e] → beAt m.body 2 6 = e.1 →
    Runs .rfpAck s (fun t => t.peer m.srcUid =
        { s.peer m.srcUid with unacked := [], expiries := 0, applied := (t.peer m.srcUid).applied } ∧
      (t.peer m.srcUid).applied = (if e.2.1 = 8 ∧ beAt e.2.2 18 2 = 0 then max (s.peer m.srcUid).applied (beAt e.2.2 8 8)
        else (s.peer m.srcUid).applied) ∧
      t = { s with fab := { s.fab with inbox := rest, peers := t.fab.peers } })) ∧
  (∀ (s : State) (uid : BitVec 64),
    ((s.peer uid).unacked = [] → Idle (.rfpRetxTimeout uid) s) ∧
    ((s.peer uid).unacked ≠ [] → Runs (.rfpRetxTimeout uid) s (fun t =>
      t.peer uid = { s.peer uid with expiries := (s.peer uid).expiries + 1 } ∧
      t = { s with fab := { s.fab with peers := t.fab.peers, counters := t.fab.counters }, net := t.net })))

/-- Forwarding and replication. `Stmt.ForwardingMessages` and `Stmt.ReplicationMessages` both hold. -/
def Obligations.ForwardingAndReplication : Prop := Stmt.ForwardingMessages ∧ Stmt.ReplicationMessages

/-! ## The Transom requests -/

namespace Sys2Proof.Stmt

/-- Request r is at the front of the management engine's queue with its CODE, not waiting, and the package is out of RESET. -/
structure Asked (s : State) (code : Nat) (r : TReq) (rest : List TReq) : Prop where
  front : s.eng.treqs = r :: rest
  code : r.code = code
  fresh : r.started = false
  awake : s.mode.mode ≠ .reset

/-- The connection of the request stands. -/
def Standing (s : State) (r : TReq) : Prop :=
  (s.conn r.conn).gen = r.gen ∧ ((s.conn r.conn).state = .open ∨ (s.conn r.conn).state = .closing)

/-- Request r has its response: with TSTATUS ts and this body it joins its connection's, or is discarded with the connection. -/
def Replies (s t : State) (r : TReq) (rest : List TReq) (ts : Nat) (body : Octets) : Prop :=
  t.eng.treqs = rest ∧
  (Standing s r → t.conn r.conn = { s.conn r.conn with rsps := (s.conn r.conn).rsps ++
    [{ tag := r.tag, commit := r.commit, segs := [.octets (transomHead ts r.code r.tag r.commit ++ body)] }] }) ∧
  (¬ Standing s r → t.wot.conns = s.wot.conns ∧ t.wot.outstanding = s.wot.outstanding - 1)

/-- The response is all that command i does. -/
def ReplyOnly (i : Instr) (s : State) (r : TReq) (rest : List TReq) (ts : Nat) (body : Octets) : Prop :=
  Runs i s (fun t => Replies s t r rest ts body ∧ t = { s with
    eng := { s.eng with treqs := rest }
    wot := { s.wot with conns := t.wot.conns, outstanding := t.wot.outstanding } })

/-- REASON and seven zero octets. -/
def reasonBody (n : Nat) : Octets := BitVec.ofNat 8 n :: zeros 7

/-- The row of each Transom code but MODESET, which has four. -/
def rowOfCode : List (Nat × Instr) :=
  [(0x0001, .rread), (0x0002, .rwrite), (0x0003, .tread), (0x0004, .twrite), (0x0010, .hbind), (0x0011, .hempty),
   (0x0012, .hread), (0x0013, .pbind), (0x0014, .prun), (0x0021, .otpset), (0x0022, .mastermove), (0x0023, .kserase),
   (0x0030, .fabform), (0x0031, .fabremove)]

/-- The counts are within the limits of Table 15-13, IMPORTDIS 1 is final, MASTERPREF names a store die. -/
def OtpInv (o : Otp) : Prop :=
  o.leftFabDom ≤ 8 ∧ o.leftRootMgmt ≤ 16 ∧ o.leftMediaRoot ≤ 16 ∧ o.leftLaneMap ≤ 4 ∧ o.leftMasterPref ≤ 4 ∧
  o.leftImportDis ≤ 1 ∧ o.masterPref < 4 ∧ (o.importDis = true → o.leftImportDis = 0)

/-- No count rises, a setting changes only as its count falls, IMPORTDIS does not return to 0. -/
def OtpFalls (a b : Otp) : Prop :=
  b.leftFabDom ≤ a.leftFabDom ∧ b.leftRootMgmt ≤ a.leftRootMgmt ∧ b.leftMediaRoot ≤ a.leftMediaRoot ∧
  b.leftLaneMap ≤ a.leftLaneMap ∧ b.leftMasterPref ≤ a.leftMasterPref ∧ b.leftImportDis ≤ a.leftImportDis ∧
  (b.fabDom ≠ a.fabDom → b.leftFabDom < a.leftFabDom) ∧ (b.rootMgmt ≠ a.rootMgmt → b.leftRootMgmt < a.leftRootMgmt) ∧
  (b.mediaRoot ≠ a.mediaRoot → b.leftMediaRoot < a.leftMediaRoot) ∧
  (b.laneMap ≠ a.laneMap → b.leftLaneMap < a.leftLaneMap) ∧
  (b.masterPref ≠ a.masterPref → b.leftMasterPref < a.leftMasterPref) ∧ (a.importDis = true → b.importDis = true)

/-- The four rows of MODESET. -/
def modesetRows : List Instr := [.modesetReset, .modesetService, .modesetDrain, .modesetFormat]

end Sys2Proof.Stmt

/-- A Transom row acts for its own code. With no request at the front, in RESET, or with another CODE there, a row changes
nothing; a CODE of no request is answered NOCODE; a body of a wrong length is answered LENGTH. That a command whose
conditions do not hold changes nothing is the model's choice (log 1). -/
def Sys2Proof.Stmt.TransomRowsAndErrors : Prop :=
  ∀ (s : State),
    (∀ e, e ∈ rowOfCode →
      (s.eng.treqs = [] → Idle e.2 s) ∧ (s.mode.mode = .reset → Idle e.2 s) ∧
      (∀ r rest, s.eng.treqs = r :: rest → r.code ≠ e.1 → Idle e.2 s)) ∧
    (∀ i, i ∈ modesetRows → (s.eng.treqs = [] → Idle i s) ∧ (s.mode.mode = .reset → Idle i s) ∧
      (∀ r rest, s.eng.treqs = r :: rest → r.code ≠ 0x0020 → Idle i s)) ∧
    (∀ r rest c, Asked s c r rest → ¬ c ∈ transomCodes → ReplyOnly .nocode s r rest 1 []) ∧
    (∀ r rest c, Asked s c r rest → c ∈ transomCodes → Idle .nocode s) ∧
    (∀ r rest, Asked s 0x0012 r rest → r.body.length ≠ 8 → ReplyOnly .hread s r rest 2 []) ∧
    (∀ r rest, Asked s 0x0023 r rest → r.body.length ≠ 8 → ReplyOnly .kserase s r rest 2 []) ∧
    (∀ r rest, Asked s 0x0030 r rest → r.body.length ≠ 8 → ReplyOnly .fabform s r rest 2 []) ∧
    (∀ r rest, Asked s 0x0022 r rest → r.body.length ≠ 8 → ReplyOnly .mastermove s r rest 2 [])

/-- Registers and tables by Transom. A batch of one entry performs its access, RWRITE at the request's commit number, and
answers its status, RREAD with the value. A TREAD of a namespace entry answers it; a TWRITE of one waits for the commands
that its change concerns, then records it, and is rejected while the namespace holds anything and its settings would change.
That a command whose conditions do not hold changes nothing is the model's choice (log 1). -/
def Sys2Proof.Stmt.TransomRegistersAndTables : Prop :=
  ∀ (s : State) (r : TReq) (rest : List TReq),
    (Asked s 0x0001 r rest → beAt r.body 0 2 = 1 → r.body.length = 16 →
      ∀ q, q = s.regRead (w32 (beAt r.body 8 4)) (beAt r.body 12 2) →
        exec .rread s = .next (q.2.tRespond r 0 (beOctets 2 1 ++ zeros 6 ++
          ([BitVec.ofNat 8 q.1.status] ++ zeros 3 ++ beOctets 4 q.1.value.toNat)))) ∧
    (Asked s 0x0002 r rest → beAt r.body 0 2 = 1 → r.body.length = 20 →
      ∀ q, q = s.regWrite false (w32 (beAt r.body 8 4)) (beAt r.body 12 2) (w32 (beAt r.body 16 4)) r.commit →
        exec .rwrite s = .next (q.2.tRespond r 0 (beOctets 2 1 ++ zeros 6 ++ ([BitVec.ofNat 8 q.1.status] ++ zeros 7)))) ∧
    (∀ n, Asked s 0x0003 r rest → r.body.length = 16 → beAt r.body 0 4 = 0 → beAt r.body 4 1 = 1 → beAt r.body 6 2 = 1 →
      beAt r.body 8 4 = n → n < 4096 →
      ReplyOnly .tread s r rest 0 (tableResponse 0 1 ++ beOctets 4 (s.nsEntry n).toNat)) ∧
    (∀ n v, Asked s 0x0004 r rest → r.body.length = 20 → beAt r.body 0 4 = 0 → beAt r.body 4 1 = 1 → beAt r.body 6 2 = 1 →
      beAt r.body 8 4 = n → n < 4096 → v = (w32 (beAt r.body 16 4) &&& 0x1FFFFF#32) →
      ((s.nsWaits r.commit 1 n (r.body.drop 16) = true ∨ s.tablesWait = true) → Idle .twrite s) ∧
      (s.nsWaits r.commit 1 n (r.body.drop 16) = false → s.tablesWait = false →
      (s.nsHolds n = true → field v 1 19 ≠ field (s.nsEntry n) 1 19 →
        ReplyOnly .twrite s r rest 0 (tableResponse 6 0)) ∧
      ((s.nsHolds n = false ∨ field v 1 19 = field (s.nsEntry n) 1 19) →
        Runs .twrite s (fun t => Replies s t r rest 0 (tableResponse 0 1) ∧ t.nsEntry n = v ∧
          (∀ k, k ≠ n → t.nsEntry k = s.nsEntry k) ∧ s.tables.changedAt ≤ t.tables.changedAt ∧
          Raised s t 0x0016 0xB000 (r.commit % 2 ^ 32) (r.commit / 2 ^ 32) n v.toNat ∧ t.otp = s.otp ∧ t.clock = s.clock))))

/-- Transom rows, errors, registers and tables. `Stmt.TransomRowsAndErrors` and `Stmt.TransomRegistersAndTables` both hold.
-/
def Obligations.TransomAccesses : Prop := Stmt.TransomRowsAndErrors ∧ Stmt.TransomRegistersAndTables

/-- Handler and program requests. With no command waiting for a binding, HBIND of an object that fails its checks answers
the REASON and binds nothing; a good one binds its image, once no older one is in use, and LOADS counts; HEMPTY empties the
slot; while the table is stopped both are only staged. HREAD answers the entry. PBIND binds a program slot that does not
run. PRUN of an empty slot answers EMPTY, else the program starts with ARG in g0 and the request waits. That a command whose
conditions do not hold changes nothing is the model's choice (log 1). -/
def Sys2Proof.Stmt.TransomHandlersAndPrograms : Prop :=
  ∀ (s : State) (r : TReq) (rest : List TReq) (b : Octets), b = r.body →
    (Asked s 0x0010 r rest → 8 ≤ b.length → (b.getD 1 0).getLsbD 0 = false → (∀ c, c ∈ s.eng.cmds → c.unbound = false) →
      (∀ n, n = objReason (b.drop 8) 0 → n ≠ 0 →
        ReplyOnly .hbind s r rest 0 ([BitVec.ofNat 8 n] ++ zeros 7 ++ beOctets 16 (entryWord (s.hslot (beAt b 0 1)).entry))) ∧
      (objReason (b.drop 8) 0 = 0 → (s.fn 49).state = .running → (s.hslot (beAt b 0 1)).older = none →
        s.eng.hstaged = [] → s.tablesWait = false → (s.placeImage 1 (beAt b 0 1) r.commit (objWords (b.drop 8))).isSome = true →
        ∀ e, e = { objEntry (b.drop 8) with loads := ((s.hslot (beAt b 0 1)).entry.loads + 1) % 2 ^ 32 } →
        Runs .hbind s (fun t => Replies s t r rest 0 ([0#8] ++ zeros 7 ++ beOctets 16 (entryWord e)) ∧
          (t.hslot (beAt b 0 1)).entry = e ∧ (t.hslot (beAt b 0 1)).image = some (.words (objWords (b.drop 8))) ∧
          (∀ k, k ≠ beAt b 0 1 → t.hslot k = s.hslot k) ∧
          Raised s t 0x0015 0xB000 (r.commit % 2 ^ 32) (r.commit / 2 ^ 32) (beAt b 0 1) e.imageId.toNat)) ∧
      (objReason (b.drop 8) 0 = 0 → (s.fn 49).state ≠ .running →
        Runs .hbind s (fun t => t.eng.treqs = rest ∧ t.eng.handlers = s.eng.handlers ∧ t.eng.hstaged = s.eng.hstaged ++
          [{ slot := beAt b 0 1, entry := objEntry (b.drop 8), image := some (.words (objWords (b.drop 8))) }]))) ∧
    (Asked s 0x0011 r rest → b.length = 8 → (s.fn 49).state ≠ .running → (∀ c, c ∈ s.eng.cmds → c.unbound = false) →
      Runs .hempty s (fun t => t.eng.treqs = rest ∧ t.eng.handlers = s.eng.handlers ∧
        t.eng.hstaged = s.eng.hstaged ++ [{ slot := beAt b 0 1, entry := {}, image := none }])) ∧
    (Asked s 0x0011 r rest → b.length = 8 → (s.fn 49).state = .running → (s.hslot (beAt b 0 1)).older = none →
      s.tablesWait = false → (∀ c, c ∈ s.eng.cmds → c.unbound = false) →
      Runs .hempty s (fun t => t.eng.treqs = rest ∧ (t.hslot (beAt b 0 1)).image = none ∧
        (t.hslot (beAt b 0 1)).entry = { loads := ((s.hslot (beAt b 0 1)).entry.loads + 1) % 2 ^ 32 } ∧
        (∀ k, k ≠ beAt b 0 1 → t.hslot k = s.hslot k))) ∧
    (Asked s 0x0012 r rest → b.length = 8 → (s.hslot (beAt b 0 1)).older = none →
      ReplyOnly .hread s r rest 0 ([0#8, BitVec.ofNat 8 (if (s.hslot (beAt b 0 1)).image.isSome then 1 else 0), 0#8, 0#8] ++
        beOctets 4 0 ++ beOctets 16 (entryWord (s.hslot (beAt b 0 1)).entry))) ∧
    (Asked s 0x0013 r rest → 8 ≤ b.length →
      (∀ n, n = objReason (b.drop 8) 1 → n ≠ 0 → ReplyOnly .pbind s r rest 0 (reasonBody n)) ∧
      (objReason (b.drop 8) 1 = 0 → beAt b 0 1 < 5 → 32 ≤ beAt b 1 1 → beAt b 1 1 < 64 →
        (s.progRuns (beAt b 0 1) (beAt b 1 1) = true → Idle .pbind s) ∧
        (s.progRuns (beAt b 0 1) (beAt b 1 1) = false → s.tablesWait = false →
          (s.placeImage 3 (progKey (beAt b 0 1) (beAt b 1 1)) r.commit (objWords (b.drop 8))).isSome = true →
          Runs .pbind s (fun t => Replies s t r rest 0 (reasonBody 0) ∧
            (∃ p, t.prog (beAt b 0 1) (beAt b 1 1) = some p ∧ p.words = objWords (b.drop 8) ∧
              p.budget = beAt (b.drop 8) 8 2 ∧ p.imageId = w32 (beAt (b.drop 8) 12 4)) ∧ t.otp = s.otp)))) ∧
    (Asked s 0x0014 r rest → b.length = 16 →
      ((5 ≤ beAt b 0 1 ∨ beAt b 1 1 < 32 ∨ 64 ≤ beAt b 1 1) → ReplyOnly .prun s r rest 0 (reasonBody 4)) ∧
      (beAt b 0 1 < 5 → 32 ≤ beAt b 1 1 → beAt b 1 1 < 64 →
        (s.prog (beAt b 0 1) (beAt b 1 1) = none → ReplyOnly .prun s r rest 0 (reasonBody 1)) ∧
        (∀ p, s.prog (beAt b 0 1) (beAt b 1 1) = some p → s.mgmtUp (beAt b 0 1) = true →
          s.inv (.mgmt (beAt b 0 1)) = none →
          Runs .prun s (fun t => t = { s with eng := t.eng } ∧ t.eng.treqs = { r with started := true } :: rest ∧
            ∃ v, t.inv (.mgmt (beAt b 0 1)) = some v ∧ v.work = .program (beAt b 1 1) (some r.commit) ∧
              v.image = .words p.words ∧ v.pc = 0 ∧ v.g 0 = w64 (beAt b 8 8)))))

/-- Handlers and management programs. `Stmt.TransomHandlersAndPrograms` and `Stmt.TriggeredPrograms` both hold. -/
def Obligations.HandlersAndPrograms : Prop := Stmt.TransomHandlersAndPrograms ∧ Stmt.TriggeredPrograms

/-- MODESET. RESET with the unique ID as CONFIRM answers and schedules the reset; SERVICE leaves DRAIN by the causes and is
BADMODE from any other mode or with an unlisted MODE; DRAIN is entered from SERVICE and DEGRADED; FORMAT from DRAIN is BUSY
while a client connection is open, else waits for every command and then starts the format; later requests stay. A wrong
CONFIRM is answered BADCONFIRM. That a command whose conditions do not hold changes nothing is the model's choice (log 1).
Which row answers an unlisted MODE is the model's choice (log 76). -/
def Obligations.ModesetRequests : Prop :=
  ∀ (s : State) (r : TReq) (rest : List TReq), Asked s 0x0020 r rest → r.body.length = 16 →
    (modesetMode r = 0 →
      (beAt r.body 8 8 ≠ Config.uid.toNat → ReplyOnly .modesetReset s r rest 0 (reasonBody 2)) ∧
      (beAt r.body 8 8 = Config.uid.toNat → Runs .modesetReset s (fun t => Replies s t r rest 0 (reasonBody 0) ∧
        t.mode = { s.mode with resetScheduled := true } ∧ t.recorder = s.recorder ∧ SettingsKept s t))) ∧
    (modesetMode r ≠ 0 → modesetMode r ≠ 7 → modesetMode r ≠ 9 →
      ((modesetMode r ≠ 5 ∨ s.mode.mode ≠ .drain) → ReplyOnly .modesetService s r rest 0 (reasonBody 1)) ∧
      (modesetMode r = 5 → s.mode.mode = .drain → beAt r.body 8 8 ≠ 0 → ReplyOnly .modesetService s r rest 0 (reasonBody 2)) ∧
      (modesetMode r = 5 → s.mode.mode = .drain → beAt r.body 8 8 = 0 →
        Runs .modesetService s (fun t => Replies s t r rest 0 (reasonBody 0) ∧
          t.mode = { s.mode with mode := if s.mode.degr = 0 then .service else .degraded } ∧ SettingsKept s t))) ∧
    (modesetMode r = 7 →
      (s.mode.mode ≠ .service → s.mode.mode ≠ .degraded → ReplyOnly .modesetDrain s r rest 0 (reasonBody 1)) ∧
      ((s.mode.mode = .service ∨ s.mode.mode = .degraded) → beAt r.body 8 8 ≠ 0 →
        ReplyOnly .modesetDrain s r rest 0 (reasonBody 2)) ∧
      ((s.mode.mode = .service ∨ s.mode.mode = .degraded) → beAt r.body 8 8 = 0 →
        Runs .modesetDrain s (fun t => Replies s t r rest 0 (reasonBody 0) ∧ t.mode.mode = .drain ∧ t.mode.drained = false ∧
          SettingsKept s t))) ∧
    (modesetMode r = 9 →
      (s.mode.mode ≠ .drain → ReplyOnly .modesetFormat s r rest 0 (reasonBody 1)) ∧
      (s.mode.mode = .drain → beAt r.body 8 8 ≠ Config.uid.toNat → ReplyOnly .modesetFormat s r rest 0 (reasonBody 2)) ∧
      (s.mode.mode = .drain → beAt r.body 8 8 = Config.uid.toNat →
        ((∃ e, e ∈ s.wot.conns ∧ e.2.mgmt = false ∧ e.2.state = .open) → ReplyOnly .modesetFormat s r rest 0 (reasonBody 3)) ∧
        (s.wot.conns = [] → s.eng.cmds ≠ [] → Idle .modesetFormat s) ∧
        (s.wot.conns = [] → s.eng.cmds = [] → Runs .modesetFormat s (fun t => t.mode.mode = .format ∧ t.eng.treqs = rest ∧
          t.eng.cmds = [] ∧ t.eng.ctxs = [] ∧ t.locks = [] ∧ t.sel.stream = [] ∧ t.wot.outstanding = rest.length ∧ t.wot.gate = [] ∧
          t.dies = s.dies ∧
          SettingsKept s t))))

/-- OTP settings, keys and the fabric's requests. OTPSET of a changed fabric domain, management root key or media root key
takes VALUE and uses one count; the media root key also rewraps the key tables. A bad setting, length or an exhausted domain
is answered by its REASON. KSERASE answers BADSLOT, waits for earlier commands of the slot's namespaces, and gives every
live die a new key. MASTERMOVE names the die and waits for a grant. FABFORM and FABREMOVE answer by what they find. That a
command whose conditions do not hold changes nothing is the model's choice (log 1). That the answer needs the row again is
the model's choice (log 77). Which commands it waits for is the model's reading (log 91). -/
def Obligations.TransomSettingsAndFabric : Prop :=
  ∀ (s : State) (r : TReq) (rest : List TReq) (b : Octets), b = r.body →
    (Asked s 0x0021 r rest → 8 ≤ b.length →
      ((beAt b 0 1 < 1 ∨ 4 < beAt b 0 1) → ReplyOnly .otpset s r rest 0 ([1#8, 0#8] ++ zeros 6)) ∧
      (beAt b 0 1 = 1 → b.length ≠ 16 → ReplyOnly .otpset s r rest 0 ([2#8, BitVec.ofNat 8 s.otp.leftFabDom] ++ zeros 6)) ∧
      (beAt b 0 1 = 1 → b.length = 16 → s.otp.fabDom.toNat ≠ beNat (b.drop 8) → s.otp.leftFabDom = 0 →
        ReplyOnly .otpset s r rest 0 ([3#8, 0#8] ++ zeros 6)) ∧
      (beAt b 0 1 = 1 → b.length = 16 → s.otp.fabDom.toNat = beNat (b.drop 8) →
        ReplyOnly .otpset s r rest 0 ([0#8, BitVec.ofNat 8 s.otp.leftFabDom] ++ zeros 6)) ∧
      (beAt b 0 1 = 1 → b.length = 16 → s.otp.fabDom.toNat ≠ beNat (b.drop 8) → s.otp.leftFabDom ≠ 0 →
        Runs .otpset s (fun t => Replies s t r rest 0 ([0#8, BitVec.ofNat 8 (s.otp.leftFabDom - 1)] ++ zeros 6) ∧
          t.otp = { s.otp with fabDom := BitVec.ofNat 64 (beNat (b.drop 8)), leftFabDom := s.otp.leftFabDom - 1 } ∧
          Raised s t 0x0014 0xD800 (r.commit % 2 ^ 32) (r.commit / 2 ^ 32) 1 (s.otp.leftFabDom - 1) ∧
          t.tables = s.tables ∧ t.clock = s.clock ∧ t.dies = s.dies)) ∧
      (beAt b 0 1 = 2 → b.length = 40 → s.otp.rootMgmt.toNat ≠ beNat (b.drop 8) → s.otp.leftRootMgmt ≠ 0 →
        Runs .otpset s (fun t => t.eng.treqs = rest ∧
          t.otp = { s.otp with rootMgmt := BitVec.ofNat 256 (beNat (b.drop 8)), leftRootMgmt := s.otp.leftRootMgmt - 1 } ∧
          t.clock = s.clock ∧ t.dies = s.dies)) ∧
      (beAt b 0 1 = 3 → b.length = 40 → s.otp.mediaKey.toNat ≠ beNat (b.drop 8) → s.otp.leftMediaRoot ≠ 0 →
        Runs .otpset s (fun t => Replies s t r rest 0 ([0#8, BitVec.ofNat 8 (s.otp.leftMediaRoot - 1)] ++ zeros 6) ∧
          t.otp = { s.otp with mediaRoot := some (BitVec.ofNat 256 (beNat (b.drop 8))), leftMediaRoot := s.otp.leftMediaRoot - 1 } ∧
          t.clock = s.clock ∧ ∀ d, d < 4 → (s.die d).live = true → t.die d = { s.die d with keySeq := (s.die d).keySeq + 1 }))) ∧
    (Asked s 0x0023 r rest → b.length = 8 →
      (1024 ≤ beAt b 0 2 → ReplyOnly .kserase s r rest 0 ([1#8] ++ zeros 7 ++ zeros 16)) ∧
      (beAt b 0 2 < 1024 → (∃ c, c ∈ s.eng.cmds ∧ c.commit < r.commit ∧ c.open_ = true ∧ s.nsOfKey (beAt b 0 2) c.nsid = true) →
        Idle .kserase s) ∧
      (beAt b 0 2 < 1024 → s.eng.cmds = [] → (∀ d, d < 4 → (s.die d).dir = [] ∧ (s.die d).puts = []) →
        Runs .kserase s (fun t => Replies s t r rest 0 (zeros 8 ++ beOctets 8 0 ++ beOctets 8 0) ∧
          (∀ d, d < 4 → (s.die d).live = true → (t.die d).keySeq = (s.die d).keySeq + 1 ∧
            ∀ k, k ≠ beAt b 0 2 → tabGet (fun _ => 0) (t.die d).keys k = tabGet (fun _ => 0) (s.die d).keys k) ∧
          (∀ d, d < 4 → (s.die d).live = false → (t.die d).keys = (s.die d).keys) ∧ SettingsKept s t))) ∧
    (Asked s 0x0022 r rest → b.length = 8 →
      (4 ≤ beAt b 0 1 → beAt b 0 1 ≤ 0xFE → ReplyOnly .mastermove s r rest 0 ([BitVec.ofNat 8 s.lease.holder, 1#8] ++ zeros 6)) ∧
      ((beAt b 0 1 < 4 ∨ beAt b 0 1 = 0xFF) → s.lease.state = .held →
        exec .mastermove s = .next { s with
          lease := { s.lease with named := beAt b 0 1, refuse := some (beAt b 0 1) }
          eng := { s.eng with treqs := { r with started := true } :: rest } })) ∧
    (s.eng.treqs = r :: rest → r.code = 0x0022 → r.started = true → s.mode.mode ≠ .reset →
      (s.lease.state = .held → s.lease.refuse = none →
        ReplyOnly .mastermove s r rest 0 ([BitVec.ofNat 8 s.lease.holder, 0#8] ++ zeros 6)) ∧
      ((s.lease.state ≠ .held ∨ s.lease.refuse ≠ none) → Idle .mastermove s)) ∧
    (Asked s 0x0030 r rest → b.length = 8 →
      ((beAt b 0 2 = 0 ∨ 4096 < beAt b 0 2) → ReplyOnly .fabform s r rest 0 (reasonBody 1)) ∧
      (1 ≤ beAt b 0 2 → beAt b 0 2 ≤ 4096 → s.lastGen ≠ none → ReplyOnly .fabform s r rest 0 (reasonBody 2)) ∧
      (1 ≤ beAt b 0 2 → beAt b 0 2 ≤ 4096 → s.lastGen = none →
        Runs .fabform s (fun t => Replies s t r rest 0 (reasonBody 0) ∧
          t.fab = { s.fab with formCount := some (beAt b 0 2) } ∧ SettingsKept s t))) ∧
    (Asked s 0x0031 r rest → b.length = 8 →
      (s.fab.standalone = true → ReplyOnly .fabremove s r rest 0 (reasonBody 2)) ∧
      (s.fab.standalone = false → s.lastGen = none → ReplyOnly .fabremove s r rest 0 (reasonBody 1)) ∧
      (∀ g m, s.fab.standalone = false → s.lastGen = some g → m ∈ g.members → m.uid.toNat = beAt b 0 8 →
        Runs .fabremove s (fun t => Replies s t r rest 0 (reasonBody 0) ∧
          t.fab = { s.fab with removed := s.fab.removed ++ [m.uid] } ∧ SettingsKept s t)))

/-! ## The test access port, the time-base program -/

/-- The test access port. EXTEST, EXTEST_PULSE, EXTEST_TRAIN, HIGHZ and CLAMP act only in BOOT and RESET, every instruction
only with TRST_N high; each becomes the current instruction with its scan, and nothing outside the port changes. TRST_N low
resets the port. That a row is one instruction with one scan is the model's choice (log 89). -/
def Obligations.TapInstructions : Prop :=
  (∀ (s : State) (scan balls : List Bool), s.pins.trst = true →
    (s.mode.mode ≠ .reset → s.mode.mode ≠ .boot → ∀ i, (i = .extest scan balls ∨ i = .extestPulse scan balls ∨
      i = .extestTrain scan balls ∨ i = .highz ∨ i = .clamp scan) → Idle i s) ∧
    ((s.mode.mode = .reset ∨ s.mode.mode = .boot) →
      exec (.extest scan balls) s = .next { s with tap := { s.tap with
        ir := 0x00, driving := true, floating := false, pulsing := false, captured := balls, boundary := scan } } ∧
      exec (.extestPulse scan balls) s = .next { s with tap := { s.tap with
        ir := 0x05, driving := true, floating := false, pulsing := true, captured := balls, boundary := scan } } ∧
      exec (.extestTrain scan balls) s = .next { s with tap := { s.tap with
        ir := 0x06, driving := true, floating := false, pulsing := true, captured := balls, boundary := scan } } ∧
      exec (.clamp scan) s = .next { s with tap := { s.tap with
        ir := 0x04, driving := true, floating := false, pulsing := false, boundary := scan, bypass := false } } ∧
      exec .highz s = .next { s with tap := { s.tap with
        ir := 0x03, driving := false, floating := true, pulsing := false, bypass := false } }) ∧
    exec (.samplePreload scan balls) s = .next { s with tap := { s.tap with
      ir := 0x01, driving := false, floating := false, pulsing := false, captured := balls, boundary := scan } } ∧
    Runs .idcode s (fun t => t = { s with tap := t.tap } ∧ t.tap.ir = 0x02 ∧ t.tap.driving = false ∧
      t.tap.data.getLsbD 0 = true ∧ t.tap.data.toNat / 2 % 2 ^ 11 = 0x6D5 ∧ t.tap.data.toNat / 2 ^ 12 % 2 ^ 16 = 0x8256) ∧
    exec .bootstat s = .next { s with tap := { s.tap with
      ir := 0x80, driving := false, floating := false, pulsing := false, data := s.mode.bootStat } } ∧
    (∀ tdi, exec (.bypass tdi) s = .next { s with tap := { s.tap with
      ir := 0xFF, driving := false, floating := false, pulsing := false, bypass := tdi } })) ∧
  (∀ (s : State) (i : Instr), s.pins.trst = false → (i = .idcode ∨ i = .bootstat ∨ i = .highz ∨ (∃ a b, i = .extest a b ∨
    i = .extestPulse a b ∨ i = .extestTrain a b ∨ i = .samplePreload a b) ∨ (∃ a, i = .clamp a) ∨ ∃ b, i = .bypass b) → Idle i s) ∧
  (∀ s : State, exec (.trstN true) s = .next { s with pins := { s.pins with trst := true } } ∧
    exec (.trstN false) s = .next { s with pins := { s.pins with trst := false }, tap := {} })

/-- The time-base program. A PTP frame is taken from its queue and has no effect with PTPEN 0, on another MAC or in another
domain. An Announce of the program's MAC, transport and domain makes its sender the master when none is known. 3 s without a
Sync end LOCKED and forget the master, TB_ADJ kept. The transports, the comparison of masters and the forgetting are the
model's (log 60). That a command whose conditions do not hold changes nothing is the model's choice (log 1). -/
def Obligations.TimeBaseProgram : Prop :=
  (∀ s : State, (s.net.ptpQueue = [] → Idle .ptpMessage s) ∧
    (∀ m f rest, s.net.ptpQueue = (m, f) :: rest →
      (s.clock.ptpEn = false → exec .ptpMessage s = .next { s with net := { s.net with ptpQueue := rest } }) ∧
      (m ≠ s.clock.ptpMac → exec .ptpMessage s = .next { s with net := { s.net with ptpQueue := rest } }) ∧
      (beAt (ptpPayload (f.octets.take (f.octets.length - 4))) 4 1 ≠ s.clock.ptpDomain →
        exec .ptpMessage s = .next { s with net := { s.net with ptpQueue := rest } }) ∧
      (∀ o msg, o = f.octets.take (f.octets.length - 4) → msg = ptpPayload o → s.clock.ptpEn = true → m = s.clock.ptpMac →
        transportOf o = s.clock.ptpTransport → beAt msg 1 1 % 16 = 2 → beAt msg 4 1 = s.clock.ptpDomain →
        beAt msg 0 1 % 16 = 0xB → s.clock.ptpMaster = none →
        Runs .ptpMessage s (fun t => t.clock.masterPort = some ((announceVector msg).drop 16) ∧
          t = { s with net := { s.net with ptpQueue := rest }, clock := { s.clock with ptpMaster := t.clock.ptpMaster } })))) ∧
  (∀ s : State, (s.clock.ptpEn = false → Idle .ptpSyncTimeout s) ∧
    (s.clock.ptpEn = true → exec .ptpSyncTimeout s = .next { s with
      clock := { s.clock with locked := false, goodSyncs := 0, ptpMaster := none, syncPend := none } }))

/-! ## The OTP settings over every step -/

/-- The OTP settings' invariant at reset. A right-from-reset package meets it: no count is above its limit, IMPORTDIS 1
leaves none, MASTERPREF names a die. -/
def Sys2Proof.Stmt.OtpInvariantAtReset : Prop := OtpInv State.reset.otp

/-- The package at reset, with the OTP settings' invariant holding. `Stmt.ResetValues` and `Stmt.OtpInvariantAtReset` both
hold. -/
def Obligations.ResetValuesAndOtpInvariant : Prop := Stmt.ResetValues ∧ Stmt.OtpInvariantAtReset

/-- The OTP settings' invariant is kept. Whatever command a step takes, in any state, the counts stay within their limits,
IMPORTDIS stays 1 once it is, no count rises, and a setting that is write-limited changes only as its count falls. -/
def Obligations.OtpInvariantKept : Prop :=
  ∀ s t : State, step s = .next t → OtpInv s.otp →
    OtpInv t.otp ∧ OtpFalls s.otp t.otp
end

