-- ==== Sys2Proof/Laws/Tab.lean ====
section
/-! SUPPORT. The laws of the sparse tables: a read after a write gives the value written, a write leaves every other key
alone, and every table operation keeps the canonical form. -/

namespace Sys2Proof.Machine

section
variable {α : Type}

theorem tabGet_tabErase_same (d : Nat → α) (t : Tab α) (k : Nat) : tabGet d (tabErase t k) k = d k := by
  induction t with
  | nil => rfl
  | cons e rest ih =>
    obtain ⟨j, v⟩ := e
    by_cases h : j = k
    · simp [tabErase, h, ih]
    · simp [tabErase, tabGet, h, ih]

theorem tabGet_tabErase_other (d : Nat → α) (t : Tab α) {k l : Nat} (h : l ≠ k) :
    tabGet d (tabErase t k) l = tabGet d t l := by
  induction t with
  | nil => rfl
  | cons e rest ih =>
    obtain ⟨j, v⟩ := e
    by_cases hj : j = k
    · subst hj
      simp [tabErase, tabGet, ih, Ne.symm h]
    · simp [tabErase, tabGet, hj, ih]

theorem tabGet_tabInsert_same (d : Nat → α) (t : Tab α) (k : Nat) (v : α) : tabGet d (tabInsert t k v) k = v := by
  induction t with
  | nil => simp [tabInsert, tabGet]
  | cons e rest ih =>
    obtain ⟨j, w⟩ := e
    by_cases h : j = k
    · simp [tabInsert, tabGet, h]
    · by_cases hlt : k < j
      · simp [tabInsert, tabGet, h, hlt]
      · simp [tabInsert, tabGet, h, hlt, ih]

theorem tabGet_tabInsert_other (d : Nat → α) (t : Tab α) {k l : Nat} (v : α) (h : l ≠ k) :
    tabGet d (tabInsert t k v) l = tabGet d t l := by
  induction t with
  | nil => simp [tabInsert, tabGet, Ne.symm h]
  | cons e rest ih =>
    obtain ⟨j, w⟩ := e
    by_cases hj : j = k
    · subst hj
      simp [tabInsert, tabGet, Ne.symm h]
    · by_cases hlt : k < j
      · simp [tabInsert, tabGet, hj, hlt, Ne.symm h]
      · simp [tabInsert, tabGet, hj, hlt, ih]

variable [DecidableEq α]

@[simp] theorem tabGet_tabSet_same (d : Nat → α) (t : Tab α) (k : Nat) (v : α) : tabGet d (tabSet d t k v) k = v := by
  unfold tabSet
  split
  · next h => rw [tabGet_tabErase_same, h]
  · exact tabGet_tabInsert_same d t k v

theorem tabGet_tabSet_other (d : Nat → α) (t : Tab α) {k l : Nat} (v : α) (h : l ≠ k) :
    tabGet d (tabSet d t k v) l = tabGet d t l := by
  unfold tabSet
  split
  · exact tabGet_tabErase_other d t h
  · exact tabGet_tabInsert_other d t v h

@[simp] theorem tabGet_tabMod_same (d : Nat → α) (t : Tab α) (k : Nat) (f : α → α) :
    tabGet d (tabMod d t k f) k = f (tabGet d t k) := tabGet_tabSet_same d t k _

theorem tabGet_tabMod_other (d : Nat → α) (t : Tab α) {k l : Nat} (f : α → α) (h : l ≠ k) :
    tabGet d (tabMod d t k f) l = tabGet d t l := tabGet_tabSet_other d t _ h

/-! ## The canonical form -/

/-- A lower bound on the keys may be weakened. -/
theorem tabWfFrom_weaken (d : Nat → α) {lo hi : Option Nat} {t : Tab α} (hlo : ∀ l, lo = some l → ∃ m, hi = some m ∧ l ≤ m)
    (h : tabWfFrom d hi t = true) : tabWfFrom d lo t = true := by
  cases t with
  | nil => rfl
  | cons e rest =>
    obtain ⟨j, v⟩ := e
    cases lo with
    | none =>
      cases hi with
      | none => exact h
      | some m => simp [tabWfFrom] at h ⊢; exact ⟨h.1.2, h.2⟩
    | some l =>
      obtain ⟨m, rfl, hm⟩ := hlo l rfl
      simp [tabWfFrom] at h ⊢
      exact ⟨⟨by omega, h.1.2⟩, h.2⟩

theorem tabWfFrom_erase (d : Nat → α) (k : Nat) : ∀ (lo : Option Nat) (t : Tab α),
    tabWfFrom d lo t = true → tabWfFrom d lo (tabErase t k) = true := by
  intro lo t
  induction t generalizing lo with
  | nil => intro h; exact h
  | cons e rest ih =>
    obtain ⟨j, v⟩ := e
    intro h
    simp only [tabWfFrom, Bool.and_eq_true] at h
    by_cases hj : j = k
    · simp only [tabErase, hj, if_true]
      refine ih lo (tabWfFrom_weaken d ?_ h.2)
      intro l hl
      subst hl
      exact ⟨j, rfl, by have := h.1.1; simp at this; omega⟩
    · simp only [tabErase, hj, if_false, tabWfFrom, Bool.and_eq_true]
      exact ⟨h.1, ih _ h.2⟩

theorem tabWfFrom_insert (d : Nat → α) (k : Nat) (v : α) (hv : v ≠ d k) : ∀ (lo : Option Nat) (t : Tab α),
    (∀ l, lo = some l → l < k) → tabWfFrom d lo t = true → tabWfFrom d lo (tabInsert t k v) = true := by
  intro lo t
  induction t generalizing lo with
  | nil =>
    intro hk _
    cases lo with
    | none => simp [tabInsert, tabWfFrom, hv]
    | some l => simp [tabInsert, tabWfFrom, hv, hk l rfl]
  | cons e rest ih =>
    obtain ⟨j, w⟩ := e
    intro hk h
    simp only [tabWfFrom, Bool.and_eq_true] at h
    by_cases hj : j = k
    · subst hj
      simp only [tabInsert, if_true, tabWfFrom, Bool.and_eq_true]
      exact ⟨⟨h.1.1, by simp [hv]⟩, h.2⟩
    · by_cases hlt : k < j
      · simp only [tabInsert, hj, if_false, hlt, if_true, tabWfFrom, Bool.and_eq_true]
        refine ⟨⟨?_, by simp [hv]⟩, ⟨by simp, h.1.2⟩, h.2⟩
        cases lo with
        | none => rfl
        | some l => simp [hk l rfl]
      · simp only [tabInsert, hj, if_false, hlt, tabWfFrom, Bool.and_eq_true]
        refine ⟨h.1, ih _ ?_ h.2⟩
        intro l hl
        cases hl
        omega

theorem tabWf_tabSet (d : Nat → α) {t : Tab α} (k : Nat) (v : α) (h : tabWf d t = true) : tabWf d (tabSet d t k v) = true := by
  unfold tabSet
  split
  · exact tabWfFrom_erase d k none t h
  · next hv => exact tabWfFrom_insert d k v hv none t (by intro l hl; cases hl) h

theorem tabWf_tabMod (d : Nat → α) {t : Tab α} (k : Nat) (f : α → α) (h : tabWf d t = true) :
    tabWf d (tabMod d t k f) = true := tabWf_tabSet d k _ h

theorem tabWfFrom_tabMapAll (d : Nat → α) (f : Nat → α → α) : ∀ (lo : Option Nat) (t : Tab α),
    tabWfFrom d lo t = true → tabWfFrom d lo (tabMapAll d f t) = true := by
  intro lo t
  induction t generalizing lo with
  | nil => intro h; exact h
  | cons e rest ih =>
    obtain ⟨j, v⟩ := e
    intro h
    simp only [tabWfFrom, Bool.and_eq_true] at h
    by_cases hf : f j v = d j
    · simp only [tabMapAll, hf, if_true]
      refine ih lo (tabWfFrom_weaken d ?_ h.2)
      intro l hl
      subst hl
      exact ⟨j, rfl, by have := h.1.1; simp at this; omega⟩
    · simp only [tabMapAll, hf, if_false, tabWfFrom, Bool.and_eq_true]
      exact ⟨⟨h.1.1, by simp [hf]⟩, ih _ h.2⟩

theorem tabWf_tabMapAll (d : Nat → α) (f : Nat → α → α) {t : Tab α} (h : tabWf d t = true) :
    tabWf d (tabMapAll d f t) = true := tabWfFrom_tabMapAll d f none t h

end

end Sys2Proof.Machine
end

