-- ==== Sys2Proof/Laws/State.lean ====
section
/-! SUPPORT. The laws of State's updates: what each named update changes, read back through its accessor, and every
component it leaves alone. -/

namespace Sys2Proof.Machine

section
variable (s : State)

@[simp] theorem State.modDie_pins (k : Nat) (f : Die → Die) : (s.modDie k f).pins = s.pins := rfl
@[simp] theorem State.modDie_mons (k : Nat) (f : Die → Die) : (s.modDie k f).mons = s.mons := rfl
@[simp] theorem State.modDie_clock (k : Nat) (f : Die → Die) : (s.modDie k f).clock = s.clock := rfl
@[simp] theorem State.modDie_mode (k : Nat) (f : Die → Die) : (s.modDie k f).mode = s.mode := rfl
@[simp] theorem State.modDie_otp (k : Nat) (f : Die → Die) : (s.modDie k f).otp = s.otp := rfl
@[simp] theorem State.modDie_recorder (k : Nat) (f : Die → Die) : (s.modDie k f).recorder = s.recorder := rfl
@[simp] theorem State.modDie_net (k : Nat) (f : Die → Die) : (s.modDie k f).net = s.net := rfl
@[simp] theorem State.modDie_wot (k : Nat) (f : Die → Die) : (s.modDie k f).wot = s.wot := rfl
@[simp] theorem State.modDie_eng (k : Nat) (f : Die → Die) : (s.modDie k f).eng = s.eng := rfl
@[simp] theorem State.modDie_tables (k : Nat) (f : Die → Die) : (s.modDie k f).tables = s.tables := rfl
@[simp] theorem State.modDie_sel (k : Nat) (f : Die → Die) : (s.modDie k f).sel = s.sel := rfl
@[simp] theorem State.modDie_arbs (k : Nat) (f : Die → Die) : (s.modDie k f).arbs = s.arbs := rfl
@[simp] theorem State.modDie_locks (k : Nat) (f : Die → Die) : (s.modDie k f).locks = s.locks := rfl
@[simp] theorem State.modDie_masked (k : Nat) (f : Die → Die) : (s.modDie k f).masked = s.masked := rfl
@[simp] theorem State.modDie_lease (k : Nat) (f : Die → Die) : (s.modDie k f).lease = s.lease := rfl
@[simp] theorem State.modDie_fab (k : Nat) (f : Die → Die) : (s.modDie k f).fab = s.fab := rfl
@[simp] theorem State.modDie_tap (k : Nat) (f : Die → Die) : (s.modDie k f).tap = s.tap := rfl
@[simp] theorem State.modDie_profiles (k : Nat) (f : Die → Die) : (s.modDie k f).profiles = s.profiles := rfl
@[simp] theorem State.modDie_portLinks (k : Nat) (f : Die → Die) : (s.modDie k f).portLinks = s.portLinks := rfl
@[simp] theorem State.modDie_placedOctets (k : Nat) (f : Die → Die) : (s.modDie k f).placedOctets = s.placedOctets := rfl
@[simp] theorem State.modDie_answer (k : Nat) (f : Die → Die) : (s.modDie k f).answer = s.answer := rfl
@[simp] theorem State.modDie_draws (k : Nat) (f : Die → Die) : (s.modDie k f).draws = s.draws := rfl
@[simp] theorem State.modDie_pending (k : Nat) (f : Die → Die) : (s.modDie k f).pending = s.pending := rfl

@[simp] theorem State.die_modDie_same (k : Nat) (f : Die → Die) : (s.modDie k f).die k = f (s.die k) :=
  tabGet_tabMod_same _ _ k f
theorem State.die_modDie_other {k l : Nat} (f : Die → Die) (h : l ≠ k) : (s.modDie k f).die l = s.die l :=
  tabGet_tabMod_other _ _ f h

@[simp] theorem State.modMon_pins (k : Nat) (f : DieMon → DieMon) : (s.modMon k f).pins = s.pins := rfl
@[simp] theorem State.modMon_clock (k : Nat) (f : DieMon → DieMon) : (s.modMon k f).clock = s.clock := rfl
@[simp] theorem State.modMon_mode (k : Nat) (f : DieMon → DieMon) : (s.modMon k f).mode = s.mode := rfl
@[simp] theorem State.modMon_otp (k : Nat) (f : DieMon → DieMon) : (s.modMon k f).otp = s.otp := rfl
@[simp] theorem State.modMon_recorder (k : Nat) (f : DieMon → DieMon) : (s.modMon k f).recorder = s.recorder := rfl
@[simp] theorem State.modMon_net (k : Nat) (f : DieMon → DieMon) : (s.modMon k f).net = s.net := rfl
@[simp] theorem State.modMon_wot (k : Nat) (f : DieMon → DieMon) : (s.modMon k f).wot = s.wot := rfl
@[simp] theorem State.modMon_eng (k : Nat) (f : DieMon → DieMon) : (s.modMon k f).eng = s.eng := rfl
@[simp] theorem State.modMon_dies (k : Nat) (f : DieMon → DieMon) : (s.modMon k f).dies = s.dies := rfl
@[simp] theorem State.modMon_tables (k : Nat) (f : DieMon → DieMon) : (s.modMon k f).tables = s.tables := rfl
@[simp] theorem State.modMon_sel (k : Nat) (f : DieMon → DieMon) : (s.modMon k f).sel = s.sel := rfl
@[simp] theorem State.modMon_arbs (k : Nat) (f : DieMon → DieMon) : (s.modMon k f).arbs = s.arbs := rfl
@[simp] theorem State.modMon_locks (k : Nat) (f : DieMon → DieMon) : (s.modMon k f).locks = s.locks := rfl
@[simp] theorem State.modMon_masked (k : Nat) (f : DieMon → DieMon) : (s.modMon k f).masked = s.masked := rfl
@[simp] theorem State.modMon_lease (k : Nat) (f : DieMon → DieMon) : (s.modMon k f).lease = s.lease := rfl
@[simp] theorem State.modMon_fab (k : Nat) (f : DieMon → DieMon) : (s.modMon k f).fab = s.fab := rfl
@[simp] theorem State.modMon_tap (k : Nat) (f : DieMon → DieMon) : (s.modMon k f).tap = s.tap := rfl
@[simp] theorem State.modMon_profiles (k : Nat) (f : DieMon → DieMon) : (s.modMon k f).profiles = s.profiles := rfl
@[simp] theorem State.modMon_portLinks (k : Nat) (f : DieMon → DieMon) : (s.modMon k f).portLinks = s.portLinks := rfl
@[simp] theorem State.modMon_placedOctets (k : Nat) (f : DieMon → DieMon) : (s.modMon k f).placedOctets = s.placedOctets := rfl
@[simp] theorem State.modMon_answer (k : Nat) (f : DieMon → DieMon) : (s.modMon k f).answer = s.answer := rfl
@[simp] theorem State.modMon_draws (k : Nat) (f : DieMon → DieMon) : (s.modMon k f).draws = s.draws := rfl
@[simp] theorem State.modMon_pending (k : Nat) (f : DieMon → DieMon) : (s.modMon k f).pending = s.pending := rfl

@[simp] theorem State.mon_modMon_same (k : Nat) (f : DieMon → DieMon) : (s.modMon k f).mon k = f (s.mon k) :=
  tabGet_tabMod_same _ _ k f
theorem State.mon_modMon_other {k l : Nat} (f : DieMon → DieMon) (h : l ≠ k) : (s.modMon k f).mon l = s.mon l :=
  tabGet_tabMod_other _ _ f h

@[simp] theorem State.modFn_pins (k : Nat) (f : Fn → Fn) : (s.modFn k f).pins = s.pins := rfl
@[simp] theorem State.modFn_mons (k : Nat) (f : Fn → Fn) : (s.modFn k f).mons = s.mons := rfl
@[simp] theorem State.modFn_clock (k : Nat) (f : Fn → Fn) : (s.modFn k f).clock = s.clock := rfl
@[simp] theorem State.modFn_otp (k : Nat) (f : Fn → Fn) : (s.modFn k f).otp = s.otp := rfl
@[simp] theorem State.modFn_recorder (k : Nat) (f : Fn → Fn) : (s.modFn k f).recorder = s.recorder := rfl
@[simp] theorem State.modFn_net (k : Nat) (f : Fn → Fn) : (s.modFn k f).net = s.net := rfl
@[simp] theorem State.modFn_wot (k : Nat) (f : Fn → Fn) : (s.modFn k f).wot = s.wot := rfl
@[simp] theorem State.modFn_eng (k : Nat) (f : Fn → Fn) : (s.modFn k f).eng = s.eng := rfl
@[simp] theorem State.modFn_dies (k : Nat) (f : Fn → Fn) : (s.modFn k f).dies = s.dies := rfl
@[simp] theorem State.modFn_tables (k : Nat) (f : Fn → Fn) : (s.modFn k f).tables = s.tables := rfl
@[simp] theorem State.modFn_sel (k : Nat) (f : Fn → Fn) : (s.modFn k f).sel = s.sel := rfl
@[simp] theorem State.modFn_arbs (k : Nat) (f : Fn → Fn) : (s.modFn k f).arbs = s.arbs := rfl
@[simp] theorem State.modFn_locks (k : Nat) (f : Fn → Fn) : (s.modFn k f).locks = s.locks := rfl
@[simp] theorem State.modFn_masked (k : Nat) (f : Fn → Fn) : (s.modFn k f).masked = s.masked := rfl
@[simp] theorem State.modFn_lease (k : Nat) (f : Fn → Fn) : (s.modFn k f).lease = s.lease := rfl
@[simp] theorem State.modFn_fab (k : Nat) (f : Fn → Fn) : (s.modFn k f).fab = s.fab := rfl
@[simp] theorem State.modFn_tap (k : Nat) (f : Fn → Fn) : (s.modFn k f).tap = s.tap := rfl
@[simp] theorem State.modFn_profiles (k : Nat) (f : Fn → Fn) : (s.modFn k f).profiles = s.profiles := rfl
@[simp] theorem State.modFn_portLinks (k : Nat) (f : Fn → Fn) : (s.modFn k f).portLinks = s.portLinks := rfl
@[simp] theorem State.modFn_placedOctets (k : Nat) (f : Fn → Fn) : (s.modFn k f).placedOctets = s.placedOctets := rfl
@[simp] theorem State.modFn_answer (k : Nat) (f : Fn → Fn) : (s.modFn k f).answer = s.answer := rfl
@[simp] theorem State.modFn_draws (k : Nat) (f : Fn → Fn) : (s.modFn k f).draws = s.draws := rfl
@[simp] theorem State.modFn_pending (k : Nat) (f : Fn → Fn) : (s.modFn k f).pending = s.pending := rfl

@[simp] theorem State.fn_modFn_same (k : Nat) (f : Fn → Fn) : (s.modFn k f).fn k = f (s.fn k) :=
  tabGet_tabMod_same _ _ k f
theorem State.fn_modFn_other {k l : Nat} (f : Fn → Fn) (h : l ≠ k) : (s.modFn k f).fn l = s.fn l :=
  tabGet_tabMod_other _ _ f h

@[simp] theorem State.modConn_pins (k : Nat) (f : Conn → Conn) : (s.modConn k f).pins = s.pins := rfl
@[simp] theorem State.modConn_mons (k : Nat) (f : Conn → Conn) : (s.modConn k f).mons = s.mons := rfl
@[simp] theorem State.modConn_clock (k : Nat) (f : Conn → Conn) : (s.modConn k f).clock = s.clock := rfl
@[simp] theorem State.modConn_mode (k : Nat) (f : Conn → Conn) : (s.modConn k f).mode = s.mode := rfl
@[simp] theorem State.modConn_otp (k : Nat) (f : Conn → Conn) : (s.modConn k f).otp = s.otp := rfl
@[simp] theorem State.modConn_recorder (k : Nat) (f : Conn → Conn) : (s.modConn k f).recorder = s.recorder := rfl
@[simp] theorem State.modConn_net (k : Nat) (f : Conn → Conn) : (s.modConn k f).net = s.net := rfl
@[simp] theorem State.modConn_eng (k : Nat) (f : Conn → Conn) : (s.modConn k f).eng = s.eng := rfl
@[simp] theorem State.modConn_dies (k : Nat) (f : Conn → Conn) : (s.modConn k f).dies = s.dies := rfl
@[simp] theorem State.modConn_tables (k : Nat) (f : Conn → Conn) : (s.modConn k f).tables = s.tables := rfl
@[simp] theorem State.modConn_sel (k : Nat) (f : Conn → Conn) : (s.modConn k f).sel = s.sel := rfl
@[simp] theorem State.modConn_arbs (k : Nat) (f : Conn → Conn) : (s.modConn k f).arbs = s.arbs := rfl
@[simp] theorem State.modConn_locks (k : Nat) (f : Conn → Conn) : (s.modConn k f).locks = s.locks := rfl
@[simp] theorem State.modConn_masked (k : Nat) (f : Conn → Conn) : (s.modConn k f).masked = s.masked := rfl
@[simp] theorem State.modConn_lease (k : Nat) (f : Conn → Conn) : (s.modConn k f).lease = s.lease := rfl
@[simp] theorem State.modConn_fab (k : Nat) (f : Conn → Conn) : (s.modConn k f).fab = s.fab := rfl
@[simp] theorem State.modConn_tap (k : Nat) (f : Conn → Conn) : (s.modConn k f).tap = s.tap := rfl
@[simp] theorem State.modConn_profiles (k : Nat) (f : Conn → Conn) : (s.modConn k f).profiles = s.profiles := rfl
@[simp] theorem State.modConn_portLinks (k : Nat) (f : Conn → Conn) : (s.modConn k f).portLinks = s.portLinks := rfl
@[simp] theorem State.modConn_placedOctets (k : Nat) (f : Conn → Conn) : (s.modConn k f).placedOctets = s.placedOctets := rfl
@[simp] theorem State.modConn_answer (k : Nat) (f : Conn → Conn) : (s.modConn k f).answer = s.answer := rfl
@[simp] theorem State.modConn_draws (k : Nat) (f : Conn → Conn) : (s.modConn k f).draws = s.draws := rfl
@[simp] theorem State.modConn_pending (k : Nat) (f : Conn → Conn) : (s.modConn k f).pending = s.pending := rfl

@[simp] theorem State.conn_modConn_same (k : Nat) (f : Conn → Conn) : (s.modConn k f).conn k = f (s.conn k) :=
  tabGet_tabMod_same _ _ k f
theorem State.conn_modConn_other {k l : Nat} (f : Conn → Conn) (h : l ≠ k) : (s.modConn k f).conn l = s.conn l :=
  tabGet_tabMod_other _ _ f h

@[simp] theorem State.modMac_pins (k : Nat) (f : Mac → Mac) : (s.modMac k f).pins = s.pins := rfl
@[simp] theorem State.modMac_mons (k : Nat) (f : Mac → Mac) : (s.modMac k f).mons = s.mons := rfl
@[simp] theorem State.modMac_clock (k : Nat) (f : Mac → Mac) : (s.modMac k f).clock = s.clock := rfl
@[simp] theorem State.modMac_mode (k : Nat) (f : Mac → Mac) : (s.modMac k f).mode = s.mode := rfl
@[simp] theorem State.modMac_otp (k : Nat) (f : Mac → Mac) : (s.modMac k f).otp = s.otp := rfl
@[simp] theorem State.modMac_recorder (k : Nat) (f : Mac → Mac) : (s.modMac k f).recorder = s.recorder := rfl
@[simp] theorem State.modMac_wot (k : Nat) (f : Mac → Mac) : (s.modMac k f).wot = s.wot := rfl
@[simp] theorem State.modMac_eng (k : Nat) (f : Mac → Mac) : (s.modMac k f).eng = s.eng := rfl
@[simp] theorem State.modMac_dies (k : Nat) (f : Mac → Mac) : (s.modMac k f).dies = s.dies := rfl
@[simp] theorem State.modMac_tables (k : Nat) (f : Mac → Mac) : (s.modMac k f).tables = s.tables := rfl
@[simp] theorem State.modMac_sel (k : Nat) (f : Mac → Mac) : (s.modMac k f).sel = s.sel := rfl
@[simp] theorem State.modMac_arbs (k : Nat) (f : Mac → Mac) : (s.modMac k f).arbs = s.arbs := rfl
@[simp] theorem State.modMac_locks (k : Nat) (f : Mac → Mac) : (s.modMac k f).locks = s.locks := rfl
@[simp] theorem State.modMac_masked (k : Nat) (f : Mac → Mac) : (s.modMac k f).masked = s.masked := rfl
@[simp] theorem State.modMac_lease (k : Nat) (f : Mac → Mac) : (s.modMac k f).lease = s.lease := rfl
@[simp] theorem State.modMac_fab (k : Nat) (f : Mac → Mac) : (s.modMac k f).fab = s.fab := rfl
@[simp] theorem State.modMac_tap (k : Nat) (f : Mac → Mac) : (s.modMac k f).tap = s.tap := rfl
@[simp] theorem State.modMac_profiles (k : Nat) (f : Mac → Mac) : (s.modMac k f).profiles = s.profiles := rfl
@[simp] theorem State.modMac_portLinks (k : Nat) (f : Mac → Mac) : (s.modMac k f).portLinks = s.portLinks := rfl
@[simp] theorem State.modMac_placedOctets (k : Nat) (f : Mac → Mac) : (s.modMac k f).placedOctets = s.placedOctets := rfl
@[simp] theorem State.modMac_answer (k : Nat) (f : Mac → Mac) : (s.modMac k f).answer = s.answer := rfl
@[simp] theorem State.modMac_draws (k : Nat) (f : Mac → Mac) : (s.modMac k f).draws = s.draws := rfl
@[simp] theorem State.modMac_pending (k : Nat) (f : Mac → Mac) : (s.modMac k f).pending = s.pending := rfl

@[simp] theorem State.mac_modMac_same (k : Nat) (f : Mac → Mac) : (s.modMac k f).mac k = f (s.mac k) :=
  tabGet_tabMod_same _ _ k f
theorem State.mac_modMac_other {k l : Nat} (f : Mac → Mac) (h : l ≠ k) : (s.modMac k f).mac l = s.mac l :=
  tabGet_tabMod_other _ _ f h

@[simp] theorem State.modLane_pins (k : Nat) (f : Lane → Lane) : (s.modLane k f).pins = s.pins := rfl
@[simp] theorem State.modLane_mons (k : Nat) (f : Lane → Lane) : (s.modLane k f).mons = s.mons := rfl
@[simp] theorem State.modLane_clock (k : Nat) (f : Lane → Lane) : (s.modLane k f).clock = s.clock := rfl
@[simp] theorem State.modLane_mode (k : Nat) (f : Lane → Lane) : (s.modLane k f).mode = s.mode := rfl
@[simp] theorem State.modLane_otp (k : Nat) (f : Lane → Lane) : (s.modLane k f).otp = s.otp := rfl
@[simp] theorem State.modLane_recorder (k : Nat) (f : Lane → Lane) : (s.modLane k f).recorder = s.recorder := rfl
@[simp] theorem State.modLane_wot (k : Nat) (f : Lane → Lane) : (s.modLane k f).wot = s.wot := rfl
@[simp] theorem State.modLane_eng (k : Nat) (f : Lane → Lane) : (s.modLane k f).eng = s.eng := rfl
@[simp] theorem State.modLane_dies (k : Nat) (f : Lane → Lane) : (s.modLane k f).dies = s.dies := rfl
@[simp] theorem State.modLane_tables (k : Nat) (f : Lane → Lane) : (s.modLane k f).tables = s.tables := rfl
@[simp] theorem State.modLane_sel (k : Nat) (f : Lane → Lane) : (s.modLane k f).sel = s.sel := rfl
@[simp] theorem State.modLane_arbs (k : Nat) (f : Lane → Lane) : (s.modLane k f).arbs = s.arbs := rfl
@[simp] theorem State.modLane_locks (k : Nat) (f : Lane → Lane) : (s.modLane k f).locks = s.locks := rfl
@[simp] theorem State.modLane_masked (k : Nat) (f : Lane → Lane) : (s.modLane k f).masked = s.masked := rfl
@[simp] theorem State.modLane_lease (k : Nat) (f : Lane → Lane) : (s.modLane k f).lease = s.lease := rfl
@[simp] theorem State.modLane_fab (k : Nat) (f : Lane → Lane) : (s.modLane k f).fab = s.fab := rfl
@[simp] theorem State.modLane_tap (k : Nat) (f : Lane → Lane) : (s.modLane k f).tap = s.tap := rfl
@[simp] theorem State.modLane_profiles (k : Nat) (f : Lane → Lane) : (s.modLane k f).profiles = s.profiles := rfl
@[simp] theorem State.modLane_portLinks (k : Nat) (f : Lane → Lane) : (s.modLane k f).portLinks = s.portLinks := rfl
@[simp] theorem State.modLane_placedOctets (k : Nat) (f : Lane → Lane) : (s.modLane k f).placedOctets = s.placedOctets := rfl
@[simp] theorem State.modLane_answer (k : Nat) (f : Lane → Lane) : (s.modLane k f).answer = s.answer := rfl
@[simp] theorem State.modLane_draws (k : Nat) (f : Lane → Lane) : (s.modLane k f).draws = s.draws := rfl
@[simp] theorem State.modLane_pending (k : Nat) (f : Lane → Lane) : (s.modLane k f).pending = s.pending := rfl

@[simp] theorem State.lane_modLane_same (k : Nat) (f : Lane → Lane) : (s.modLane k f).lane k = f (s.lane k) :=
  tabGet_tabMod_same _ _ k f
theorem State.lane_modLane_other {k l : Nat} (f : Lane → Lane) (h : l ≠ k) : (s.modLane k f).lane l = s.lane l :=
  tabGet_tabMod_other _ _ f h

@[simp] theorem State.modGroup_pins (k : Nat) (f : Group → Group) : (s.modGroup k f).pins = s.pins := rfl
@[simp] theorem State.modGroup_mons (k : Nat) (f : Group → Group) : (s.modGroup k f).mons = s.mons := rfl
@[simp] theorem State.modGroup_clock (k : Nat) (f : Group → Group) : (s.modGroup k f).clock = s.clock := rfl
@[simp] theorem State.modGroup_mode (k : Nat) (f : Group → Group) : (s.modGroup k f).mode = s.mode := rfl
@[simp] theorem State.modGroup_otp (k : Nat) (f : Group → Group) : (s.modGroup k f).otp = s.otp := rfl
@[simp] theorem State.modGroup_recorder (k : Nat) (f : Group → Group) : (s.modGroup k f).recorder = s.recorder := rfl
@[simp] theorem State.modGroup_wot (k : Nat) (f : Group → Group) : (s.modGroup k f).wot = s.wot := rfl
@[simp] theorem State.modGroup_eng (k : Nat) (f : Group → Group) : (s.modGroup k f).eng = s.eng := rfl
@[simp] theorem State.modGroup_dies (k : Nat) (f : Group → Group) : (s.modGroup k f).dies = s.dies := rfl
@[simp] theorem State.modGroup_tables (k : Nat) (f : Group → Group) : (s.modGroup k f).tables = s.tables := rfl
@[simp] theorem State.modGroup_sel (k : Nat) (f : Group → Group) : (s.modGroup k f).sel = s.sel := rfl
@[simp] theorem State.modGroup_arbs (k : Nat) (f : Group → Group) : (s.modGroup k f).arbs = s.arbs := rfl
@[simp] theorem State.modGroup_locks (k : Nat) (f : Group → Group) : (s.modGroup k f).locks = s.locks := rfl
@[simp] theorem State.modGroup_masked (k : Nat) (f : Group → Group) : (s.modGroup k f).masked = s.masked := rfl
@[simp] theorem State.modGroup_lease (k : Nat) (f : Group → Group) : (s.modGroup k f).lease = s.lease := rfl
@[simp] theorem State.modGroup_fab (k : Nat) (f : Group → Group) : (s.modGroup k f).fab = s.fab := rfl
@[simp] theorem State.modGroup_tap (k : Nat) (f : Group → Group) : (s.modGroup k f).tap = s.tap := rfl
@[simp] theorem State.modGroup_profiles (k : Nat) (f : Group → Group) : (s.modGroup k f).profiles = s.profiles := rfl
@[simp] theorem State.modGroup_portLinks (k : Nat) (f : Group → Group) : (s.modGroup k f).portLinks = s.portLinks := rfl
@[simp] theorem State.modGroup_placedOctets (k : Nat) (f : Group → Group) : (s.modGroup k f).placedOctets = s.placedOctets := rfl
@[simp] theorem State.modGroup_answer (k : Nat) (f : Group → Group) : (s.modGroup k f).answer = s.answer := rfl
@[simp] theorem State.modGroup_draws (k : Nat) (f : Group → Group) : (s.modGroup k f).draws = s.draws := rfl
@[simp] theorem State.modGroup_pending (k : Nat) (f : Group → Group) : (s.modGroup k f).pending = s.pending := rfl

@[simp] theorem State.group_modGroup_same (k : Nat) (f : Group → Group) : (s.modGroup k f).group k = f (s.group k) :=
  tabGet_tabMod_same _ _ k f
theorem State.group_modGroup_other {k l : Nat} (f : Group → Group) (h : l ≠ k) : (s.modGroup k f).group l = s.group l :=
  tabGet_tabMod_other _ _ f h

@[simp] theorem State.modBank_pins (k : Nat) (f : Bank → Bank) : (s.modBank k f).pins = s.pins := rfl
@[simp] theorem State.modBank_mons (k : Nat) (f : Bank → Bank) : (s.modBank k f).mons = s.mons := rfl
@[simp] theorem State.modBank_clock (k : Nat) (f : Bank → Bank) : (s.modBank k f).clock = s.clock := rfl
@[simp] theorem State.modBank_mode (k : Nat) (f : Bank → Bank) : (s.modBank k f).mode = s.mode := rfl
@[simp] theorem State.modBank_otp (k : Nat) (f : Bank → Bank) : (s.modBank k f).otp = s.otp := rfl
@[simp] theorem State.modBank_recorder (k : Nat) (f : Bank → Bank) : (s.modBank k f).recorder = s.recorder := rfl
@[simp] theorem State.modBank_net (k : Nat) (f : Bank → Bank) : (s.modBank k f).net = s.net := rfl
@[simp] theorem State.modBank_wot (k : Nat) (f : Bank → Bank) : (s.modBank k f).wot = s.wot := rfl
@[simp] theorem State.modBank_eng (k : Nat) (f : Bank → Bank) : (s.modBank k f).eng = s.eng := rfl
@[simp] theorem State.modBank_dies (k : Nat) (f : Bank → Bank) : (s.modBank k f).dies = s.dies := rfl
@[simp] theorem State.modBank_tables (k : Nat) (f : Bank → Bank) : (s.modBank k f).tables = s.tables := rfl
@[simp] theorem State.modBank_arbs (k : Nat) (f : Bank → Bank) : (s.modBank k f).arbs = s.arbs := rfl
@[simp] theorem State.modBank_locks (k : Nat) (f : Bank → Bank) : (s.modBank k f).locks = s.locks := rfl
@[simp] theorem State.modBank_masked (k : Nat) (f : Bank → Bank) : (s.modBank k f).masked = s.masked := rfl
@[simp] theorem State.modBank_lease (k : Nat) (f : Bank → Bank) : (s.modBank k f).lease = s.lease := rfl
@[simp] theorem State.modBank_fab (k : Nat) (f : Bank → Bank) : (s.modBank k f).fab = s.fab := rfl
@[simp] theorem State.modBank_tap (k : Nat) (f : Bank → Bank) : (s.modBank k f).tap = s.tap := rfl
@[simp] theorem State.modBank_profiles (k : Nat) (f : Bank → Bank) : (s.modBank k f).profiles = s.profiles := rfl
@[simp] theorem State.modBank_portLinks (k : Nat) (f : Bank → Bank) : (s.modBank k f).portLinks = s.portLinks := rfl
@[simp] theorem State.modBank_placedOctets (k : Nat) (f : Bank → Bank) : (s.modBank k f).placedOctets = s.placedOctets := rfl
@[simp] theorem State.modBank_answer (k : Nat) (f : Bank → Bank) : (s.modBank k f).answer = s.answer := rfl
@[simp] theorem State.modBank_draws (k : Nat) (f : Bank → Bank) : (s.modBank k f).draws = s.draws := rfl
@[simp] theorem State.modBank_pending (k : Nat) (f : Bank → Bank) : (s.modBank k f).pending = s.pending := rfl

@[simp] theorem State.bank_modBank_same (k : Nat) (f : Bank → Bank) : (s.modBank k f).bank k = f (s.bank k) :=
  tabGet_tabMod_same _ _ k f
theorem State.bank_modBank_other {k l : Nat} (f : Bank → Bank) (h : l ≠ k) : (s.modBank k f).bank l = s.bank l :=
  tabGet_tabMod_other _ _ f h

@[simp] theorem State.modLock_pins (k : Nat) (f : HwLock → HwLock) : (s.modLock k f).pins = s.pins := rfl
@[simp] theorem State.modLock_mons (k : Nat) (f : HwLock → HwLock) : (s.modLock k f).mons = s.mons := rfl
@[simp] theorem State.modLock_clock (k : Nat) (f : HwLock → HwLock) : (s.modLock k f).clock = s.clock := rfl
@[simp] theorem State.modLock_mode (k : Nat) (f : HwLock → HwLock) : (s.modLock k f).mode = s.mode := rfl
@[simp] theorem State.modLock_otp (k : Nat) (f : HwLock → HwLock) : (s.modLock k f).otp = s.otp := rfl
@[simp] theorem State.modLock_recorder (k : Nat) (f : HwLock → HwLock) : (s.modLock k f).recorder = s.recorder := rfl
@[simp] theorem State.modLock_net (k : Nat) (f : HwLock → HwLock) : (s.modLock k f).net = s.net := rfl
@[simp] theorem State.modLock_wot (k : Nat) (f : HwLock → HwLock) : (s.modLock k f).wot = s.wot := rfl
@[simp] theorem State.modLock_eng (k : Nat) (f : HwLock → HwLock) : (s.modLock k f).eng = s.eng := rfl
@[simp] theorem State.modLock_dies (k : Nat) (f : HwLock → HwLock) : (s.modLock k f).dies = s.dies := rfl
@[simp] theorem State.modLock_tables (k : Nat) (f : HwLock → HwLock) : (s.modLock k f).tables = s.tables := rfl
@[simp] theorem State.modLock_sel (k : Nat) (f : HwLock → HwLock) : (s.modLock k f).sel = s.sel := rfl
@[simp] theorem State.modLock_arbs (k : Nat) (f : HwLock → HwLock) : (s.modLock k f).arbs = s.arbs := rfl
@[simp] theorem State.modLock_masked (k : Nat) (f : HwLock → HwLock) : (s.modLock k f).masked = s.masked := rfl
@[simp] theorem State.modLock_lease (k : Nat) (f : HwLock → HwLock) : (s.modLock k f).lease = s.lease := rfl
@[simp] theorem State.modLock_fab (k : Nat) (f : HwLock → HwLock) : (s.modLock k f).fab = s.fab := rfl
@[simp] theorem State.modLock_tap (k : Nat) (f : HwLock → HwLock) : (s.modLock k f).tap = s.tap := rfl
@[simp] theorem State.modLock_profiles (k : Nat) (f : HwLock → HwLock) : (s.modLock k f).profiles = s.profiles := rfl
@[simp] theorem State.modLock_portLinks (k : Nat) (f : HwLock → HwLock) : (s.modLock k f).portLinks = s.portLinks := rfl
@[simp] theorem State.modLock_placedOctets (k : Nat) (f : HwLock → HwLock) : (s.modLock k f).placedOctets = s.placedOctets := rfl
@[simp] theorem State.modLock_answer (k : Nat) (f : HwLock → HwLock) : (s.modLock k f).answer = s.answer := rfl
@[simp] theorem State.modLock_draws (k : Nat) (f : HwLock → HwLock) : (s.modLock k f).draws = s.draws := rfl
@[simp] theorem State.modLock_pending (k : Nat) (f : HwLock → HwLock) : (s.modLock k f).pending = s.pending := rfl

@[simp] theorem State.hwLock_modLock_same (k : Nat) (f : HwLock → HwLock) : (s.modLock k f).hwLock k = f (s.hwLock k) :=
  tabGet_tabMod_same _ _ k f
theorem State.hwLock_modLock_other {k l : Nat} (f : HwLock → HwLock) (h : l ≠ k) : (s.modLock k f).hwLock l = s.hwLock l :=
  tabGet_tabMod_other _ _ f h

@[simp] theorem State.modArb_pins (k : Nat) (f : Arb → Arb) : (s.modArb k f).pins = s.pins := rfl
@[simp] theorem State.modArb_mons (k : Nat) (f : Arb → Arb) : (s.modArb k f).mons = s.mons := rfl
@[simp] theorem State.modArb_clock (k : Nat) (f : Arb → Arb) : (s.modArb k f).clock = s.clock := rfl
@[simp] theorem State.modArb_mode (k : Nat) (f : Arb → Arb) : (s.modArb k f).mode = s.mode := rfl
@[simp] theorem State.modArb_otp (k : Nat) (f : Arb → Arb) : (s.modArb k f).otp = s.otp := rfl
@[simp] theorem State.modArb_recorder (k : Nat) (f : Arb → Arb) : (s.modArb k f).recorder = s.recorder := rfl
@[simp] theorem State.modArb_net (k : Nat) (f : Arb → Arb) : (s.modArb k f).net = s.net := rfl
@[simp] theorem State.modArb_wot (k : Nat) (f : Arb → Arb) : (s.modArb k f).wot = s.wot := rfl
@[simp] theorem State.modArb_eng (k : Nat) (f : Arb → Arb) : (s.modArb k f).eng = s.eng := rfl
@[simp] theorem State.modArb_dies (k : Nat) (f : Arb → Arb) : (s.modArb k f).dies = s.dies := rfl
@[simp] theorem State.modArb_tables (k : Nat) (f : Arb → Arb) : (s.modArb k f).tables = s.tables := rfl
@[simp] theorem State.modArb_sel (k : Nat) (f : Arb → Arb) : (s.modArb k f).sel = s.sel := rfl
@[simp] theorem State.modArb_locks (k : Nat) (f : Arb → Arb) : (s.modArb k f).locks = s.locks := rfl
@[simp] theorem State.modArb_masked (k : Nat) (f : Arb → Arb) : (s.modArb k f).masked = s.masked := rfl
@[simp] theorem State.modArb_lease (k : Nat) (f : Arb → Arb) : (s.modArb k f).lease = s.lease := rfl
@[simp] theorem State.modArb_fab (k : Nat) (f : Arb → Arb) : (s.modArb k f).fab = s.fab := rfl
@[simp] theorem State.modArb_tap (k : Nat) (f : Arb → Arb) : (s.modArb k f).tap = s.tap := rfl
@[simp] theorem State.modArb_profiles (k : Nat) (f : Arb → Arb) : (s.modArb k f).profiles = s.profiles := rfl
@[simp] theorem State.modArb_portLinks (k : Nat) (f : Arb → Arb) : (s.modArb k f).portLinks = s.portLinks := rfl
@[simp] theorem State.modArb_placedOctets (k : Nat) (f : Arb → Arb) : (s.modArb k f).placedOctets = s.placedOctets := rfl
@[simp] theorem State.modArb_answer (k : Nat) (f : Arb → Arb) : (s.modArb k f).answer = s.answer := rfl
@[simp] theorem State.modArb_draws (k : Nat) (f : Arb → Arb) : (s.modArb k f).draws = s.draws := rfl
@[simp] theorem State.modArb_pending (k : Nat) (f : Arb → Arb) : (s.modArb k f).pending = s.pending := rfl

@[simp] theorem State.modCmd_pins (n : Nat) (f : Cmd → Cmd) : (s.modCmd n f).pins = s.pins := rfl
@[simp] theorem State.modCmd_mons (n : Nat) (f : Cmd → Cmd) : (s.modCmd n f).mons = s.mons := rfl
@[simp] theorem State.modCmd_clock (n : Nat) (f : Cmd → Cmd) : (s.modCmd n f).clock = s.clock := rfl
@[simp] theorem State.modCmd_mode (n : Nat) (f : Cmd → Cmd) : (s.modCmd n f).mode = s.mode := rfl
@[simp] theorem State.modCmd_otp (n : Nat) (f : Cmd → Cmd) : (s.modCmd n f).otp = s.otp := rfl
@[simp] theorem State.modCmd_recorder (n : Nat) (f : Cmd → Cmd) : (s.modCmd n f).recorder = s.recorder := rfl
@[simp] theorem State.modCmd_net (n : Nat) (f : Cmd → Cmd) : (s.modCmd n f).net = s.net := rfl
@[simp] theorem State.modCmd_wot (n : Nat) (f : Cmd → Cmd) : (s.modCmd n f).wot = s.wot := rfl
@[simp] theorem State.modCmd_dies (n : Nat) (f : Cmd → Cmd) : (s.modCmd n f).dies = s.dies := rfl
@[simp] theorem State.modCmd_tables (n : Nat) (f : Cmd → Cmd) : (s.modCmd n f).tables = s.tables := rfl
@[simp] theorem State.modCmd_sel (n : Nat) (f : Cmd → Cmd) : (s.modCmd n f).sel = s.sel := rfl
@[simp] theorem State.modCmd_arbs (n : Nat) (f : Cmd → Cmd) : (s.modCmd n f).arbs = s.arbs := rfl
@[simp] theorem State.modCmd_locks (n : Nat) (f : Cmd → Cmd) : (s.modCmd n f).locks = s.locks := rfl
@[simp] theorem State.modCmd_masked (n : Nat) (f : Cmd → Cmd) : (s.modCmd n f).masked = s.masked := rfl
@[simp] theorem State.modCmd_lease (n : Nat) (f : Cmd → Cmd) : (s.modCmd n f).lease = s.lease := rfl
@[simp] theorem State.modCmd_fab (n : Nat) (f : Cmd → Cmd) : (s.modCmd n f).fab = s.fab := rfl
@[simp] theorem State.modCmd_tap (n : Nat) (f : Cmd → Cmd) : (s.modCmd n f).tap = s.tap := rfl
@[simp] theorem State.modCmd_profiles (n : Nat) (f : Cmd → Cmd) : (s.modCmd n f).profiles = s.profiles := rfl
@[simp] theorem State.modCmd_portLinks (n : Nat) (f : Cmd → Cmd) : (s.modCmd n f).portLinks = s.portLinks := rfl
@[simp] theorem State.modCmd_placedOctets (n : Nat) (f : Cmd → Cmd) : (s.modCmd n f).placedOctets = s.placedOctets := rfl
@[simp] theorem State.modCmd_answer (n : Nat) (f : Cmd → Cmd) : (s.modCmd n f).answer = s.answer := rfl
@[simp] theorem State.modCmd_draws (n : Nat) (f : Cmd → Cmd) : (s.modCmd n f).draws = s.draws := rfl
@[simp] theorem State.modCmd_pending (n : Nat) (f : Cmd → Cmd) : (s.modCmd n f).pending = s.pending := rfl

@[simp] theorem State.dropCmd_pins (n : Nat) : (s.dropCmd n).pins = s.pins := rfl
@[simp] theorem State.dropCmd_mons (n : Nat) : (s.dropCmd n).mons = s.mons := rfl
@[simp] theorem State.dropCmd_clock (n : Nat) : (s.dropCmd n).clock = s.clock := rfl
@[simp] theorem State.dropCmd_mode (n : Nat) : (s.dropCmd n).mode = s.mode := rfl
@[simp] theorem State.dropCmd_otp (n : Nat) : (s.dropCmd n).otp = s.otp := rfl
@[simp] theorem State.dropCmd_recorder (n : Nat) : (s.dropCmd n).recorder = s.recorder := rfl
@[simp] theorem State.dropCmd_net (n : Nat) : (s.dropCmd n).net = s.net := rfl
@[simp] theorem State.dropCmd_wot (n : Nat) : (s.dropCmd n).wot = s.wot := rfl
@[simp] theorem State.dropCmd_dies (n : Nat) : (s.dropCmd n).dies = s.dies := rfl
@[simp] theorem State.dropCmd_tables (n : Nat) : (s.dropCmd n).tables = s.tables := rfl
@[simp] theorem State.dropCmd_sel (n : Nat) : (s.dropCmd n).sel = s.sel := rfl
@[simp] theorem State.dropCmd_arbs (n : Nat) : (s.dropCmd n).arbs = s.arbs := rfl
@[simp] theorem State.dropCmd_locks (n : Nat) : (s.dropCmd n).locks = s.locks := rfl
@[simp] theorem State.dropCmd_masked (n : Nat) : (s.dropCmd n).masked = s.masked := rfl
@[simp] theorem State.dropCmd_lease (n : Nat) : (s.dropCmd n).lease = s.lease := rfl
@[simp] theorem State.dropCmd_fab (n : Nat) : (s.dropCmd n).fab = s.fab := rfl
@[simp] theorem State.dropCmd_tap (n : Nat) : (s.dropCmd n).tap = s.tap := rfl
@[simp] theorem State.dropCmd_profiles (n : Nat) : (s.dropCmd n).profiles = s.profiles := rfl
@[simp] theorem State.dropCmd_portLinks (n : Nat) : (s.dropCmd n).portLinks = s.portLinks := rfl
@[simp] theorem State.dropCmd_placedOctets (n : Nat) : (s.dropCmd n).placedOctets = s.placedOctets := rfl
@[simp] theorem State.dropCmd_answer (n : Nat) : (s.dropCmd n).answer = s.answer := rfl
@[simp] theorem State.dropCmd_draws (n : Nat) : (s.dropCmd n).draws = s.draws := rfl
@[simp] theorem State.dropCmd_pending (n : Nat) : (s.dropCmd n).pending = s.pending := rfl

@[simp] theorem State.settleAlert_mons  : s.settleAlert.mons = s.mons := rfl
@[simp] theorem State.settleAlert_clock  : s.settleAlert.clock = s.clock := rfl
@[simp] theorem State.settleAlert_mode  : s.settleAlert.mode = s.mode := rfl
@[simp] theorem State.settleAlert_otp  : s.settleAlert.otp = s.otp := rfl
@[simp] theorem State.settleAlert_recorder  : s.settleAlert.recorder = s.recorder := rfl
@[simp] theorem State.settleAlert_net  : s.settleAlert.net = s.net := rfl
@[simp] theorem State.settleAlert_wot  : s.settleAlert.wot = s.wot := rfl
@[simp] theorem State.settleAlert_eng  : s.settleAlert.eng = s.eng := rfl
@[simp] theorem State.settleAlert_dies  : s.settleAlert.dies = s.dies := rfl
@[simp] theorem State.settleAlert_tables  : s.settleAlert.tables = s.tables := rfl
@[simp] theorem State.settleAlert_sel  : s.settleAlert.sel = s.sel := rfl
@[simp] theorem State.settleAlert_arbs  : s.settleAlert.arbs = s.arbs := rfl
@[simp] theorem State.settleAlert_locks  : s.settleAlert.locks = s.locks := rfl
@[simp] theorem State.settleAlert_masked  : s.settleAlert.masked = s.masked := rfl
@[simp] theorem State.settleAlert_lease  : s.settleAlert.lease = s.lease := rfl
@[simp] theorem State.settleAlert_fab  : s.settleAlert.fab = s.fab := rfl
@[simp] theorem State.settleAlert_tap  : s.settleAlert.tap = s.tap := rfl
@[simp] theorem State.settleAlert_profiles  : s.settleAlert.profiles = s.profiles := rfl
@[simp] theorem State.settleAlert_portLinks  : s.settleAlert.portLinks = s.portLinks := rfl
@[simp] theorem State.settleAlert_placedOctets  : s.settleAlert.placedOctets = s.placedOctets := rfl
@[simp] theorem State.settleAlert_answer  : s.settleAlert.answer = s.answer := rfl
@[simp] theorem State.settleAlert_draws  : s.settleAlert.draws = s.draws := rfl
@[simp] theorem State.settleAlert_pending  : s.settleAlert.pending = s.pending := rfl

@[simp] theorem State.setAlert_mons (n : Nat) (v : Bool) : (s.setAlert n v).mons = s.mons := rfl
@[simp] theorem State.setAlert_clock (n : Nat) (v : Bool) : (s.setAlert n v).clock = s.clock := rfl
@[simp] theorem State.setAlert_otp (n : Nat) (v : Bool) : (s.setAlert n v).otp = s.otp := rfl
@[simp] theorem State.setAlert_recorder (n : Nat) (v : Bool) : (s.setAlert n v).recorder = s.recorder := rfl
@[simp] theorem State.setAlert_net (n : Nat) (v : Bool) : (s.setAlert n v).net = s.net := rfl
@[simp] theorem State.setAlert_wot (n : Nat) (v : Bool) : (s.setAlert n v).wot = s.wot := rfl
@[simp] theorem State.setAlert_eng (n : Nat) (v : Bool) : (s.setAlert n v).eng = s.eng := rfl
@[simp] theorem State.setAlert_dies (n : Nat) (v : Bool) : (s.setAlert n v).dies = s.dies := rfl
@[simp] theorem State.setAlert_tables (n : Nat) (v : Bool) : (s.setAlert n v).tables = s.tables := rfl
@[simp] theorem State.setAlert_sel (n : Nat) (v : Bool) : (s.setAlert n v).sel = s.sel := rfl
@[simp] theorem State.setAlert_arbs (n : Nat) (v : Bool) : (s.setAlert n v).arbs = s.arbs := rfl
@[simp] theorem State.setAlert_locks (n : Nat) (v : Bool) : (s.setAlert n v).locks = s.locks := rfl
@[simp] theorem State.setAlert_masked (n : Nat) (v : Bool) : (s.setAlert n v).masked = s.masked := rfl
@[simp] theorem State.setAlert_lease (n : Nat) (v : Bool) : (s.setAlert n v).lease = s.lease := rfl
@[simp] theorem State.setAlert_fab (n : Nat) (v : Bool) : (s.setAlert n v).fab = s.fab := rfl
@[simp] theorem State.setAlert_tap (n : Nat) (v : Bool) : (s.setAlert n v).tap = s.tap := rfl
@[simp] theorem State.setAlert_profiles (n : Nat) (v : Bool) : (s.setAlert n v).profiles = s.profiles := rfl
@[simp] theorem State.setAlert_portLinks (n : Nat) (v : Bool) : (s.setAlert n v).portLinks = s.portLinks := rfl
@[simp] theorem State.setAlert_placedOctets (n : Nat) (v : Bool) : (s.setAlert n v).placedOctets = s.placedOctets := rfl
@[simp] theorem State.setAlert_answer (n : Nat) (v : Bool) : (s.setAlert n v).answer = s.answer := rfl
@[simp] theorem State.setAlert_draws (n : Nat) (v : Bool) : (s.setAlert n v).draws = s.draws := rfl
@[simp] theorem State.setAlert_pending (n : Nat) (v : Bool) : (s.setAlert n v).pending = s.pending := rfl

@[simp] theorem State.setInv_pins (x : CtxId) (v : Option Inv) : (s.setInv x v).pins = s.pins := by cases x <;> rfl
@[simp] theorem State.setInv_mons (x : CtxId) (v : Option Inv) : (s.setInv x v).mons = s.mons := by cases x <;> rfl
@[simp] theorem State.setInv_clock (x : CtxId) (v : Option Inv) : (s.setInv x v).clock = s.clock := by cases x <;> rfl
@[simp] theorem State.setInv_mode (x : CtxId) (v : Option Inv) : (s.setInv x v).mode = s.mode := by cases x <;> rfl
@[simp] theorem State.setInv_otp (x : CtxId) (v : Option Inv) : (s.setInv x v).otp = s.otp := by cases x <;> rfl
@[simp] theorem State.setInv_recorder (x : CtxId) (v : Option Inv) : (s.setInv x v).recorder = s.recorder := by cases x <;> rfl
@[simp] theorem State.setInv_net (x : CtxId) (v : Option Inv) : (s.setInv x v).net = s.net := by cases x <;> rfl
@[simp] theorem State.setInv_wot (x : CtxId) (v : Option Inv) : (s.setInv x v).wot = s.wot := by cases x <;> rfl
@[simp] theorem State.setInv_dies (x : CtxId) (v : Option Inv) : (s.setInv x v).dies = s.dies := by cases x <;> rfl
@[simp] theorem State.setInv_tables (x : CtxId) (v : Option Inv) : (s.setInv x v).tables = s.tables := by cases x <;> rfl
@[simp] theorem State.setInv_sel (x : CtxId) (v : Option Inv) : (s.setInv x v).sel = s.sel := by cases x <;> rfl
@[simp] theorem State.setInv_arbs (x : CtxId) (v : Option Inv) : (s.setInv x v).arbs = s.arbs := by cases x <;> rfl
@[simp] theorem State.setInv_locks (x : CtxId) (v : Option Inv) : (s.setInv x v).locks = s.locks := by cases x <;> rfl
@[simp] theorem State.setInv_masked (x : CtxId) (v : Option Inv) : (s.setInv x v).masked = s.masked := by cases x <;> rfl
@[simp] theorem State.setInv_lease (x : CtxId) (v : Option Inv) : (s.setInv x v).lease = s.lease := by cases x <;> rfl
@[simp] theorem State.setInv_fab (x : CtxId) (v : Option Inv) : (s.setInv x v).fab = s.fab := by cases x <;> rfl
@[simp] theorem State.setInv_tap (x : CtxId) (v : Option Inv) : (s.setInv x v).tap = s.tap := by cases x <;> rfl
@[simp] theorem State.setInv_profiles (x : CtxId) (v : Option Inv) : (s.setInv x v).profiles = s.profiles := by cases x <;> rfl
@[simp] theorem State.setInv_portLinks (x : CtxId) (v : Option Inv) : (s.setInv x v).portLinks = s.portLinks := by cases x <;> rfl
@[simp] theorem State.setInv_placedOctets (x : CtxId) (v : Option Inv) : (s.setInv x v).placedOctets = s.placedOctets := by cases x <;> rfl
@[simp] theorem State.setInv_answer (x : CtxId) (v : Option Inv) : (s.setInv x v).answer = s.answer := by cases x <;> rfl
@[simp] theorem State.setInv_draws (x : CtxId) (v : Option Inv) : (s.setInv x v).draws = s.draws := by cases x <;> rfl
@[simp] theorem State.setInv_pending (x : CtxId) (v : Option Inv) : (s.setInv x v).pending = s.pending := by cases x <;> rfl

@[simp] theorem State.raise_pins (c o p q r t : Nat) : (s.raise c o p q r t).pins = s.pins := by unfold State.raise; split <;> rfl
@[simp] theorem State.raise_mons (c o p q r t : Nat) : (s.raise c o p q r t).mons = s.mons := by unfold State.raise; split <;> rfl
@[simp] theorem State.raise_clock (c o p q r t : Nat) : (s.raise c o p q r t).clock = s.clock := by unfold State.raise; split <;> rfl
@[simp] theorem State.raise_mode (c o p q r t : Nat) : (s.raise c o p q r t).mode = s.mode := by unfold State.raise; split <;> rfl
@[simp] theorem State.raise_otp (c o p q r t : Nat) : (s.raise c o p q r t).otp = s.otp := by unfold State.raise; split <;> rfl
@[simp] theorem State.raise_net (c o p q r t : Nat) : (s.raise c o p q r t).net = s.net := by unfold State.raise; split <;> rfl
@[simp] theorem State.raise_wot (c o p q r t : Nat) : (s.raise c o p q r t).wot = s.wot := by unfold State.raise; split <;> rfl
@[simp] theorem State.raise_eng (c o p q r t : Nat) : (s.raise c o p q r t).eng = s.eng := by unfold State.raise; split <;> rfl
@[simp] theorem State.raise_dies (c o p q r t : Nat) : (s.raise c o p q r t).dies = s.dies := by unfold State.raise; split <;> rfl
@[simp] theorem State.raise_tables (c o p q r t : Nat) : (s.raise c o p q r t).tables = s.tables := by unfold State.raise; split <;> rfl
@[simp] theorem State.raise_sel (c o p q r t : Nat) : (s.raise c o p q r t).sel = s.sel := by unfold State.raise; split <;> rfl
@[simp] theorem State.raise_arbs (c o p q r t : Nat) : (s.raise c o p q r t).arbs = s.arbs := by unfold State.raise; split <;> rfl
@[simp] theorem State.raise_locks (c o p q r t : Nat) : (s.raise c o p q r t).locks = s.locks := by unfold State.raise; split <;> rfl
@[simp] theorem State.raise_masked (c o p q r t : Nat) : (s.raise c o p q r t).masked = s.masked := by unfold State.raise; split <;> rfl
@[simp] theorem State.raise_lease (c o p q r t : Nat) : (s.raise c o p q r t).lease = s.lease := by unfold State.raise; split <;> rfl
@[simp] theorem State.raise_fab (c o p q r t : Nat) : (s.raise c o p q r t).fab = s.fab := by unfold State.raise; split <;> rfl
@[simp] theorem State.raise_tap (c o p q r t : Nat) : (s.raise c o p q r t).tap = s.tap := by unfold State.raise; split <;> rfl
@[simp] theorem State.raise_profiles (c o p q r t : Nat) : (s.raise c o p q r t).profiles = s.profiles := by unfold State.raise; split <;> rfl
@[simp] theorem State.raise_portLinks (c o p q r t : Nat) : (s.raise c o p q r t).portLinks = s.portLinks := by unfold State.raise; split <;> rfl
@[simp] theorem State.raise_placedOctets (c o p q r t : Nat) : (s.raise c o p q r t).placedOctets = s.placedOctets := by unfold State.raise; split <;> rfl
@[simp] theorem State.raise_answer (c o p q r t : Nat) : (s.raise c o p q r t).answer = s.answer := by unfold State.raise; split <;> rfl
@[simp] theorem State.raise_draws (c o p q r t : Nat) : (s.raise c o p q r t).draws = s.draws := by unfold State.raise; split <;> rfl
@[simp] theorem State.raise_pending (c o p q r t : Nat) : (s.raise c o p q r t).pending = s.pending := by unfold State.raise; split <;> rfl

@[simp] theorem State.inv_setInv_same (x : CtxId) (v : Option Inv) : (s.setInv x v).inv x = v := by
  cases x <;> exact tabGet_tabSet_same _ _ _ v

theorem State.inv_setInv_other {x y : CtxId} (v : Option Inv) (h : y ≠ x) (hx : ∀ e c, x = .eng e c → c < 8)
    (hy : ∀ e c, y = .eng e c → c < 8) : (s.setInv x v).inv y = s.inv y := by
  cases x with
  | eng e c =>
    cases y with
    | eng e' c' =>
      refine tabGet_tabSet_other _ _ v ?_
      have h1 := hx e c rfl
      have h2 := hy e' c' rfl
      intro hc
      apply h
      have : e' = e := by omega
      have : c' = c := by omega
      simp_all
    | mgmt d => rfl
  | mgmt d =>
    cases y with
    | eng e c => rfl
    | mgmt d' =>
      refine tabGet_tabSet_other _ _ v ?_
      intro hc
      exact h (by rw [hc])

end

end Sys2Proof.Machine
end

