-- ==== Sys2Proof/Laws/Ops.lean ====
section
/-! SUPPORT. What the shared operations of Machine/Ops.lean change, once for each: raising an event changes only the
recorder, an alert only its cause and ALERT_N, a mode or cause only the mode group, the alert and the recorder. -/

namespace Sys2Proof.Machine

theorem whenDo_true (s t : State) : whenDo true s t = t := rfl
theorem whenDo_false (s t : State) : whenDo false s t = s := rfl
theorem outcome_true (t : State) : outcome true t = .next t := rfl
theorem outcome_false (t : State) : outcome false t = .fault .noUnit := rfl

/-- Raising an event outside RESET appends it at the recorder's input. -/
theorem State.raise_input (s : State) (code source p0 p1 p2 p3 : Nat) (h : s.mode.mode ≠ .reset) :
    (s.raise code source p0 p1 p2 p3).recorder = { s.recorder with input := s.recorder.input ++
      [{ code := code, source := source, time := s.now, p0 := w32 p0, p1 := w32 p1, p2 := w32 p2, p3 := w32 p3 }] } := by
  simp [State.raise, State.inReset, h]
@[simp] theorem State.raiseAt_pins (s : State) (code source commit p2 p3 : Nat) : (s.raiseAt code source commit p2 p3).pins = s.pins := by
  exact State.raise_pins ..
@[simp] theorem State.raiseAt_mons (s : State) (code source commit p2 p3 : Nat) : (s.raiseAt code source commit p2 p3).mons = s.mons := by
  exact State.raise_mons ..
@[simp] theorem State.raiseAt_clock (s : State) (code source commit p2 p3 : Nat) : (s.raiseAt code source commit p2 p3).clock = s.clock := by
  exact State.raise_clock ..
@[simp] theorem State.raiseAt_mode (s : State) (code source commit p2 p3 : Nat) : (s.raiseAt code source commit p2 p3).mode = s.mode := by
  exact State.raise_mode ..
@[simp] theorem State.raiseAt_otp (s : State) (code source commit p2 p3 : Nat) : (s.raiseAt code source commit p2 p3).otp = s.otp := by
  exact State.raise_otp ..
@[simp] theorem State.raiseAt_net (s : State) (code source commit p2 p3 : Nat) : (s.raiseAt code source commit p2 p3).net = s.net := by
  exact State.raise_net ..
@[simp] theorem State.raiseAt_wot (s : State) (code source commit p2 p3 : Nat) : (s.raiseAt code source commit p2 p3).wot = s.wot := by
  exact State.raise_wot ..
@[simp] theorem State.raiseAt_eng (s : State) (code source commit p2 p3 : Nat) : (s.raiseAt code source commit p2 p3).eng = s.eng := by
  exact State.raise_eng ..
@[simp] theorem State.raiseAt_dies (s : State) (code source commit p2 p3 : Nat) : (s.raiseAt code source commit p2 p3).dies = s.dies := by
  exact State.raise_dies ..
@[simp] theorem State.raiseAt_tables (s : State) (code source commit p2 p3 : Nat) : (s.raiseAt code source commit p2 p3).tables = s.tables := by
  exact State.raise_tables ..
@[simp] theorem State.raiseAt_sel (s : State) (code source commit p2 p3 : Nat) : (s.raiseAt code source commit p2 p3).sel = s.sel := by
  exact State.raise_sel ..
@[simp] theorem State.raiseAt_arbs (s : State) (code source commit p2 p3 : Nat) : (s.raiseAt code source commit p2 p3).arbs = s.arbs := by
  exact State.raise_arbs ..
@[simp] theorem State.raiseAt_locks (s : State) (code source commit p2 p3 : Nat) : (s.raiseAt code source commit p2 p3).locks = s.locks := by
  exact State.raise_locks ..
@[simp] theorem State.raiseAt_masked (s : State) (code source commit p2 p3 : Nat) : (s.raiseAt code source commit p2 p3).masked = s.masked := by
  exact State.raise_masked ..
@[simp] theorem State.raiseAt_lease (s : State) (code source commit p2 p3 : Nat) : (s.raiseAt code source commit p2 p3).lease = s.lease := by
  exact State.raise_lease ..
@[simp] theorem State.raiseAt_fab (s : State) (code source commit p2 p3 : Nat) : (s.raiseAt code source commit p2 p3).fab = s.fab := by
  exact State.raise_fab ..
@[simp] theorem State.raiseAt_tap (s : State) (code source commit p2 p3 : Nat) : (s.raiseAt code source commit p2 p3).tap = s.tap := by
  exact State.raise_tap ..
@[simp] theorem State.raiseAt_profiles (s : State) (code source commit p2 p3 : Nat) : (s.raiseAt code source commit p2 p3).profiles = s.profiles := by
  exact State.raise_profiles ..
@[simp] theorem State.raiseAt_portLinks (s : State) (code source commit p2 p3 : Nat) : (s.raiseAt code source commit p2 p3).portLinks = s.portLinks := by
  exact State.raise_portLinks ..
@[simp] theorem State.raiseAt_placedOctets (s : State) (code source commit p2 p3 : Nat) : (s.raiseAt code source commit p2 p3).placedOctets = s.placedOctets := by
  exact State.raise_placedOctets ..
@[simp] theorem State.raiseAt_answer (s : State) (code source commit p2 p3 : Nat) : (s.raiseAt code source commit p2 p3).answer = s.answer := by
  exact State.raise_answer ..
@[simp] theorem State.raiseAt_draws (s : State) (code source commit p2 p3 : Nat) : (s.raiseAt code source commit p2 p3).draws = s.draws := by
  exact State.raise_draws ..
@[simp] theorem State.raiseAt_pending (s : State) (code source commit p2 p3 : Nat) : (s.raiseAt code source commit p2 p3).pending = s.pending := by
  exact State.raise_pending ..

@[simp] theorem State.toModeAt_pins (s : State) (m : Mode) (commit : Nat) : (s.toModeAt m commit).pins = s.pins := by
  unfold State.toModeAt; simp only [apply_ite State.pins, State.raiseAt_pins, ite_self]
@[simp] theorem State.toModeAt_mons (s : State) (m : Mode) (commit : Nat) : (s.toModeAt m commit).mons = s.mons := by
  unfold State.toModeAt; simp only [apply_ite State.mons, State.raiseAt_mons, ite_self]
@[simp] theorem State.toModeAt_clock (s : State) (m : Mode) (commit : Nat) : (s.toModeAt m commit).clock = s.clock := by
  unfold State.toModeAt; simp only [apply_ite State.clock, State.raiseAt_clock, ite_self]
@[simp] theorem State.toModeAt_otp (s : State) (m : Mode) (commit : Nat) : (s.toModeAt m commit).otp = s.otp := by
  unfold State.toModeAt; simp only [apply_ite State.otp, State.raiseAt_otp, ite_self]
@[simp] theorem State.toModeAt_net (s : State) (m : Mode) (commit : Nat) : (s.toModeAt m commit).net = s.net := by
  unfold State.toModeAt; simp only [apply_ite State.net, State.raiseAt_net, ite_self]
@[simp] theorem State.toModeAt_wot (s : State) (m : Mode) (commit : Nat) : (s.toModeAt m commit).wot = s.wot := by
  unfold State.toModeAt; simp only [apply_ite State.wot, State.raiseAt_wot, ite_self]
@[simp] theorem State.toModeAt_eng (s : State) (m : Mode) (commit : Nat) : (s.toModeAt m commit).eng = s.eng := by
  unfold State.toModeAt; simp only [apply_ite State.eng, State.raiseAt_eng, ite_self]
@[simp] theorem State.toModeAt_dies (s : State) (m : Mode) (commit : Nat) : (s.toModeAt m commit).dies = s.dies := by
  unfold State.toModeAt; simp only [apply_ite State.dies, State.raiseAt_dies, ite_self]
@[simp] theorem State.toModeAt_tables (s : State) (m : Mode) (commit : Nat) : (s.toModeAt m commit).tables = s.tables := by
  unfold State.toModeAt; simp only [apply_ite State.tables, State.raiseAt_tables, ite_self]
@[simp] theorem State.toModeAt_sel (s : State) (m : Mode) (commit : Nat) : (s.toModeAt m commit).sel = s.sel := by
  unfold State.toModeAt; simp only [apply_ite State.sel, State.raiseAt_sel, ite_self]
@[simp] theorem State.toModeAt_arbs (s : State) (m : Mode) (commit : Nat) : (s.toModeAt m commit).arbs = s.arbs := by
  unfold State.toModeAt; simp only [apply_ite State.arbs, State.raiseAt_arbs, ite_self]
@[simp] theorem State.toModeAt_locks (s : State) (m : Mode) (commit : Nat) : (s.toModeAt m commit).locks = s.locks := by
  unfold State.toModeAt; simp only [apply_ite State.locks, State.raiseAt_locks, ite_self]
@[simp] theorem State.toModeAt_masked (s : State) (m : Mode) (commit : Nat) : (s.toModeAt m commit).masked = s.masked := by
  unfold State.toModeAt; simp only [apply_ite State.masked, State.raiseAt_masked, ite_self]
@[simp] theorem State.toModeAt_lease (s : State) (m : Mode) (commit : Nat) : (s.toModeAt m commit).lease = s.lease := by
  unfold State.toModeAt; simp only [apply_ite State.lease, State.raiseAt_lease, ite_self]
@[simp] theorem State.toModeAt_fab (s : State) (m : Mode) (commit : Nat) : (s.toModeAt m commit).fab = s.fab := by
  unfold State.toModeAt; simp only [apply_ite State.fab, State.raiseAt_fab, ite_self]
@[simp] theorem State.toModeAt_tap (s : State) (m : Mode) (commit : Nat) : (s.toModeAt m commit).tap = s.tap := by
  unfold State.toModeAt; simp only [apply_ite State.tap, State.raiseAt_tap, ite_self]
@[simp] theorem State.toModeAt_profiles (s : State) (m : Mode) (commit : Nat) : (s.toModeAt m commit).profiles = s.profiles := by
  unfold State.toModeAt; simp only [apply_ite State.profiles, State.raiseAt_profiles, ite_self]
@[simp] theorem State.toModeAt_portLinks (s : State) (m : Mode) (commit : Nat) : (s.toModeAt m commit).portLinks = s.portLinks := by
  unfold State.toModeAt; simp only [apply_ite State.portLinks, State.raiseAt_portLinks, ite_self]
@[simp] theorem State.toModeAt_placedOctets (s : State) (m : Mode) (commit : Nat) : (s.toModeAt m commit).placedOctets = s.placedOctets := by
  unfold State.toModeAt; simp only [apply_ite State.placedOctets, State.raiseAt_placedOctets, ite_self]
@[simp] theorem State.toModeAt_answer (s : State) (m : Mode) (commit : Nat) : (s.toModeAt m commit).answer = s.answer := by
  unfold State.toModeAt; simp only [apply_ite State.answer, State.raiseAt_answer, ite_self]
@[simp] theorem State.toModeAt_draws (s : State) (m : Mode) (commit : Nat) : (s.toModeAt m commit).draws = s.draws := by
  unfold State.toModeAt; simp only [apply_ite State.draws, State.raiseAt_draws, ite_self]
@[simp] theorem State.toModeAt_pending (s : State) (m : Mode) (commit : Nat) : (s.toModeAt m commit).pending = s.pending := by
  unfold State.toModeAt; simp only [apply_ite State.pending, State.raiseAt_pending, ite_self]

@[simp] theorem State.toMode_pins (s : State) (m : Mode) : (s.toMode m).pins = s.pins := by
  exact State.toModeAt_pins ..
@[simp] theorem State.toMode_mons (s : State) (m : Mode) : (s.toMode m).mons = s.mons := by
  exact State.toModeAt_mons ..
@[simp] theorem State.toMode_clock (s : State) (m : Mode) : (s.toMode m).clock = s.clock := by
  exact State.toModeAt_clock ..
@[simp] theorem State.toMode_otp (s : State) (m : Mode) : (s.toMode m).otp = s.otp := by
  exact State.toModeAt_otp ..
@[simp] theorem State.toMode_net (s : State) (m : Mode) : (s.toMode m).net = s.net := by
  exact State.toModeAt_net ..
@[simp] theorem State.toMode_wot (s : State) (m : Mode) : (s.toMode m).wot = s.wot := by
  exact State.toModeAt_wot ..
@[simp] theorem State.toMode_eng (s : State) (m : Mode) : (s.toMode m).eng = s.eng := by
  exact State.toModeAt_eng ..
@[simp] theorem State.toMode_dies (s : State) (m : Mode) : (s.toMode m).dies = s.dies := by
  exact State.toModeAt_dies ..
@[simp] theorem State.toMode_tables (s : State) (m : Mode) : (s.toMode m).tables = s.tables := by
  exact State.toModeAt_tables ..
@[simp] theorem State.toMode_sel (s : State) (m : Mode) : (s.toMode m).sel = s.sel := by
  exact State.toModeAt_sel ..
@[simp] theorem State.toMode_arbs (s : State) (m : Mode) : (s.toMode m).arbs = s.arbs := by
  exact State.toModeAt_arbs ..
@[simp] theorem State.toMode_locks (s : State) (m : Mode) : (s.toMode m).locks = s.locks := by
  exact State.toModeAt_locks ..
@[simp] theorem State.toMode_masked (s : State) (m : Mode) : (s.toMode m).masked = s.masked := by
  exact State.toModeAt_masked ..
@[simp] theorem State.toMode_lease (s : State) (m : Mode) : (s.toMode m).lease = s.lease := by
  exact State.toModeAt_lease ..
@[simp] theorem State.toMode_fab (s : State) (m : Mode) : (s.toMode m).fab = s.fab := by
  exact State.toModeAt_fab ..
@[simp] theorem State.toMode_tap (s : State) (m : Mode) : (s.toMode m).tap = s.tap := by
  exact State.toModeAt_tap ..
@[simp] theorem State.toMode_profiles (s : State) (m : Mode) : (s.toMode m).profiles = s.profiles := by
  exact State.toModeAt_profiles ..
@[simp] theorem State.toMode_portLinks (s : State) (m : Mode) : (s.toMode m).portLinks = s.portLinks := by
  exact State.toModeAt_portLinks ..
@[simp] theorem State.toMode_placedOctets (s : State) (m : Mode) : (s.toMode m).placedOctets = s.placedOctets := by
  exact State.toModeAt_placedOctets ..
@[simp] theorem State.toMode_answer (s : State) (m : Mode) : (s.toMode m).answer = s.answer := by
  exact State.toModeAt_answer ..
@[simp] theorem State.toMode_draws (s : State) (m : Mode) : (s.toMode m).draws = s.draws := by
  exact State.toModeAt_draws ..
@[simp] theorem State.toMode_pending (s : State) (m : Mode) : (s.toMode m).pending = s.pending := by
  exact State.toModeAt_pending ..

@[simp] theorem State.settleMode_pins (s : State) (commit : Nat) : (s.settleMode commit).pins = s.pins := by
  unfold State.settleMode; split <;> simp only [apply_ite State.pins, State.toModeAt_pins, ite_self]
@[simp] theorem State.settleMode_mons (s : State) (commit : Nat) : (s.settleMode commit).mons = s.mons := by
  unfold State.settleMode; split <;> simp only [apply_ite State.mons, State.toModeAt_mons, ite_self]
@[simp] theorem State.settleMode_clock (s : State) (commit : Nat) : (s.settleMode commit).clock = s.clock := by
  unfold State.settleMode; split <;> simp only [apply_ite State.clock, State.toModeAt_clock, ite_self]
@[simp] theorem State.settleMode_otp (s : State) (commit : Nat) : (s.settleMode commit).otp = s.otp := by
  unfold State.settleMode; split <;> simp only [apply_ite State.otp, State.toModeAt_otp, ite_self]
@[simp] theorem State.settleMode_net (s : State) (commit : Nat) : (s.settleMode commit).net = s.net := by
  unfold State.settleMode; split <;> simp only [apply_ite State.net, State.toModeAt_net, ite_self]
@[simp] theorem State.settleMode_wot (s : State) (commit : Nat) : (s.settleMode commit).wot = s.wot := by
  unfold State.settleMode; split <;> simp only [apply_ite State.wot, State.toModeAt_wot, ite_self]
@[simp] theorem State.settleMode_eng (s : State) (commit : Nat) : (s.settleMode commit).eng = s.eng := by
  unfold State.settleMode; split <;> simp only [apply_ite State.eng, State.toModeAt_eng, ite_self]
@[simp] theorem State.settleMode_dies (s : State) (commit : Nat) : (s.settleMode commit).dies = s.dies := by
  unfold State.settleMode; split <;> simp only [apply_ite State.dies, State.toModeAt_dies, ite_self]
@[simp] theorem State.settleMode_tables (s : State) (commit : Nat) : (s.settleMode commit).tables = s.tables := by
  unfold State.settleMode; split <;> simp only [apply_ite State.tables, State.toModeAt_tables, ite_self]
@[simp] theorem State.settleMode_sel (s : State) (commit : Nat) : (s.settleMode commit).sel = s.sel := by
  unfold State.settleMode; split <;> simp only [apply_ite State.sel, State.toModeAt_sel, ite_self]
@[simp] theorem State.settleMode_arbs (s : State) (commit : Nat) : (s.settleMode commit).arbs = s.arbs := by
  unfold State.settleMode; split <;> simp only [apply_ite State.arbs, State.toModeAt_arbs, ite_self]
@[simp] theorem State.settleMode_locks (s : State) (commit : Nat) : (s.settleMode commit).locks = s.locks := by
  unfold State.settleMode; split <;> simp only [apply_ite State.locks, State.toModeAt_locks, ite_self]
@[simp] theorem State.settleMode_masked (s : State) (commit : Nat) : (s.settleMode commit).masked = s.masked := by
  unfold State.settleMode; split <;> simp only [apply_ite State.masked, State.toModeAt_masked, ite_self]
@[simp] theorem State.settleMode_lease (s : State) (commit : Nat) : (s.settleMode commit).lease = s.lease := by
  unfold State.settleMode; split <;> simp only [apply_ite State.lease, State.toModeAt_lease, ite_self]
@[simp] theorem State.settleMode_fab (s : State) (commit : Nat) : (s.settleMode commit).fab = s.fab := by
  unfold State.settleMode; split <;> simp only [apply_ite State.fab, State.toModeAt_fab, ite_self]
@[simp] theorem State.settleMode_tap (s : State) (commit : Nat) : (s.settleMode commit).tap = s.tap := by
  unfold State.settleMode; split <;> simp only [apply_ite State.tap, State.toModeAt_tap, ite_self]
@[simp] theorem State.settleMode_profiles (s : State) (commit : Nat) : (s.settleMode commit).profiles = s.profiles := by
  unfold State.settleMode; split <;> simp only [apply_ite State.profiles, State.toModeAt_profiles, ite_self]
@[simp] theorem State.settleMode_portLinks (s : State) (commit : Nat) : (s.settleMode commit).portLinks = s.portLinks := by
  unfold State.settleMode; split <;> simp only [apply_ite State.portLinks, State.toModeAt_portLinks, ite_self]
@[simp] theorem State.settleMode_placedOctets (s : State) (commit : Nat) : (s.settleMode commit).placedOctets = s.placedOctets := by
  unfold State.settleMode; split <;> simp only [apply_ite State.placedOctets, State.toModeAt_placedOctets, ite_self]
@[simp] theorem State.settleMode_answer (s : State) (commit : Nat) : (s.settleMode commit).answer = s.answer := by
  unfold State.settleMode; split <;> simp only [apply_ite State.answer, State.toModeAt_answer, ite_self]
@[simp] theorem State.settleMode_draws (s : State) (commit : Nat) : (s.settleMode commit).draws = s.draws := by
  unfold State.settleMode; split <;> simp only [apply_ite State.draws, State.toModeAt_draws, ite_self]
@[simp] theorem State.settleMode_pending (s : State) (commit : Nat) : (s.settleMode commit).pending = s.pending := by
  unfold State.settleMode; split <;> simp only [apply_ite State.pending, State.toModeAt_pending, ite_self]

@[simp] theorem State.setCauseAt_mons (s : State) (n : Nat) (v : Bool) (commit : Nat) : (s.setCauseAt n v commit).mons = s.mons := by
  unfold State.setCauseAt; simp only [apply_ite State.mons, State.settleMode_mons, State.setAlert_mons, State.raiseAt_mons, ite_self]
@[simp] theorem State.setCauseAt_clock (s : State) (n : Nat) (v : Bool) (commit : Nat) : (s.setCauseAt n v commit).clock = s.clock := by
  unfold State.setCauseAt; simp only [apply_ite State.clock, State.settleMode_clock, State.setAlert_clock, State.raiseAt_clock, ite_self]
@[simp] theorem State.setCauseAt_otp (s : State) (n : Nat) (v : Bool) (commit : Nat) : (s.setCauseAt n v commit).otp = s.otp := by
  unfold State.setCauseAt; simp only [apply_ite State.otp, State.settleMode_otp, State.setAlert_otp, State.raiseAt_otp, ite_self]
@[simp] theorem State.setCauseAt_net (s : State) (n : Nat) (v : Bool) (commit : Nat) : (s.setCauseAt n v commit).net = s.net := by
  unfold State.setCauseAt; simp only [apply_ite State.net, State.settleMode_net, State.setAlert_net, State.raiseAt_net, ite_self]
@[simp] theorem State.setCauseAt_wot (s : State) (n : Nat) (v : Bool) (commit : Nat) : (s.setCauseAt n v commit).wot = s.wot := by
  unfold State.setCauseAt; simp only [apply_ite State.wot, State.settleMode_wot, State.setAlert_wot, State.raiseAt_wot, ite_self]
@[simp] theorem State.setCauseAt_eng (s : State) (n : Nat) (v : Bool) (commit : Nat) : (s.setCauseAt n v commit).eng = s.eng := by
  unfold State.setCauseAt; simp only [apply_ite State.eng, State.settleMode_eng, State.setAlert_eng, State.raiseAt_eng, ite_self]
@[simp] theorem State.setCauseAt_dies (s : State) (n : Nat) (v : Bool) (commit : Nat) : (s.setCauseAt n v commit).dies = s.dies := by
  unfold State.setCauseAt; simp only [apply_ite State.dies, State.settleMode_dies, State.setAlert_dies, State.raiseAt_dies, ite_self]
@[simp] theorem State.setCauseAt_tables (s : State) (n : Nat) (v : Bool) (commit : Nat) : (s.setCauseAt n v commit).tables = s.tables := by
  unfold State.setCauseAt; simp only [apply_ite State.tables, State.settleMode_tables, State.setAlert_tables, State.raiseAt_tables, ite_self]
@[simp] theorem State.setCauseAt_sel (s : State) (n : Nat) (v : Bool) (commit : Nat) : (s.setCauseAt n v commit).sel = s.sel := by
  unfold State.setCauseAt; simp only [apply_ite State.sel, State.settleMode_sel, State.setAlert_sel, State.raiseAt_sel, ite_self]
@[simp] theorem State.setCauseAt_arbs (s : State) (n : Nat) (v : Bool) (commit : Nat) : (s.setCauseAt n v commit).arbs = s.arbs := by
  unfold State.setCauseAt; simp only [apply_ite State.arbs, State.settleMode_arbs, State.setAlert_arbs, State.raiseAt_arbs, ite_self]
@[simp] theorem State.setCauseAt_locks (s : State) (n : Nat) (v : Bool) (commit : Nat) : (s.setCauseAt n v commit).locks = s.locks := by
  unfold State.setCauseAt; simp only [apply_ite State.locks, State.settleMode_locks, State.setAlert_locks, State.raiseAt_locks, ite_self]
@[simp] theorem State.setCauseAt_masked (s : State) (n : Nat) (v : Bool) (commit : Nat) : (s.setCauseAt n v commit).masked = s.masked := by
  unfold State.setCauseAt; simp only [apply_ite State.masked, State.settleMode_masked, State.setAlert_masked, State.raiseAt_masked, ite_self]
@[simp] theorem State.setCauseAt_lease (s : State) (n : Nat) (v : Bool) (commit : Nat) : (s.setCauseAt n v commit).lease = s.lease := by
  unfold State.setCauseAt; simp only [apply_ite State.lease, State.settleMode_lease, State.setAlert_lease, State.raiseAt_lease, ite_self]
@[simp] theorem State.setCauseAt_fab (s : State) (n : Nat) (v : Bool) (commit : Nat) : (s.setCauseAt n v commit).fab = s.fab := by
  unfold State.setCauseAt; simp only [apply_ite State.fab, State.settleMode_fab, State.setAlert_fab, State.raiseAt_fab, ite_self]
@[simp] theorem State.setCauseAt_tap (s : State) (n : Nat) (v : Bool) (commit : Nat) : (s.setCauseAt n v commit).tap = s.tap := by
  unfold State.setCauseAt; simp only [apply_ite State.tap, State.settleMode_tap, State.setAlert_tap, State.raiseAt_tap, ite_self]
@[simp] theorem State.setCauseAt_profiles (s : State) (n : Nat) (v : Bool) (commit : Nat) : (s.setCauseAt n v commit).profiles = s.profiles := by
  unfold State.setCauseAt; simp only [apply_ite State.profiles, State.settleMode_profiles, State.setAlert_profiles, State.raiseAt_profiles, ite_self]
@[simp] theorem State.setCauseAt_portLinks (s : State) (n : Nat) (v : Bool) (commit : Nat) : (s.setCauseAt n v commit).portLinks = s.portLinks := by
  unfold State.setCauseAt; simp only [apply_ite State.portLinks, State.settleMode_portLinks, State.setAlert_portLinks, State.raiseAt_portLinks, ite_self]
@[simp] theorem State.setCauseAt_placedOctets (s : State) (n : Nat) (v : Bool) (commit : Nat) : (s.setCauseAt n v commit).placedOctets = s.placedOctets := by
  unfold State.setCauseAt; simp only [apply_ite State.placedOctets, State.settleMode_placedOctets, State.setAlert_placedOctets, State.raiseAt_placedOctets, ite_self]
@[simp] theorem State.setCauseAt_answer (s : State) (n : Nat) (v : Bool) (commit : Nat) : (s.setCauseAt n v commit).answer = s.answer := by
  unfold State.setCauseAt; simp only [apply_ite State.answer, State.settleMode_answer, State.setAlert_answer, State.raiseAt_answer, ite_self]
@[simp] theorem State.setCauseAt_draws (s : State) (n : Nat) (v : Bool) (commit : Nat) : (s.setCauseAt n v commit).draws = s.draws := by
  unfold State.setCauseAt; simp only [apply_ite State.draws, State.settleMode_draws, State.setAlert_draws, State.raiseAt_draws, ite_self]
@[simp] theorem State.setCauseAt_pending (s : State) (n : Nat) (v : Bool) (commit : Nat) : (s.setCauseAt n v commit).pending = s.pending := by
  unfold State.setCauseAt; simp only [apply_ite State.pending, State.settleMode_pending, State.setAlert_pending, State.raiseAt_pending, ite_self]

@[simp] theorem State.setCause_mons (s : State) (n : Nat) (v : Bool) : (s.setCause n v).mons = s.mons := by
  exact State.setCauseAt_mons ..
@[simp] theorem State.setCause_clock (s : State) (n : Nat) (v : Bool) : (s.setCause n v).clock = s.clock := by
  exact State.setCauseAt_clock ..
@[simp] theorem State.setCause_otp (s : State) (n : Nat) (v : Bool) : (s.setCause n v).otp = s.otp := by
  exact State.setCauseAt_otp ..
@[simp] theorem State.setCause_net (s : State) (n : Nat) (v : Bool) : (s.setCause n v).net = s.net := by
  exact State.setCauseAt_net ..
@[simp] theorem State.setCause_wot (s : State) (n : Nat) (v : Bool) : (s.setCause n v).wot = s.wot := by
  exact State.setCauseAt_wot ..
@[simp] theorem State.setCause_eng (s : State) (n : Nat) (v : Bool) : (s.setCause n v).eng = s.eng := by
  exact State.setCauseAt_eng ..
@[simp] theorem State.setCause_dies (s : State) (n : Nat) (v : Bool) : (s.setCause n v).dies = s.dies := by
  exact State.setCauseAt_dies ..
@[simp] theorem State.setCause_tables (s : State) (n : Nat) (v : Bool) : (s.setCause n v).tables = s.tables := by
  exact State.setCauseAt_tables ..
@[simp] theorem State.setCause_sel (s : State) (n : Nat) (v : Bool) : (s.setCause n v).sel = s.sel := by
  exact State.setCauseAt_sel ..
@[simp] theorem State.setCause_arbs (s : State) (n : Nat) (v : Bool) : (s.setCause n v).arbs = s.arbs := by
  exact State.setCauseAt_arbs ..
@[simp] theorem State.setCause_locks (s : State) (n : Nat) (v : Bool) : (s.setCause n v).locks = s.locks := by
  exact State.setCauseAt_locks ..
@[simp] theorem State.setCause_masked (s : State) (n : Nat) (v : Bool) : (s.setCause n v).masked = s.masked := by
  exact State.setCauseAt_masked ..
@[simp] theorem State.setCause_lease (s : State) (n : Nat) (v : Bool) : (s.setCause n v).lease = s.lease := by
  exact State.setCauseAt_lease ..
@[simp] theorem State.setCause_fab (s : State) (n : Nat) (v : Bool) : (s.setCause n v).fab = s.fab := by
  exact State.setCauseAt_fab ..
@[simp] theorem State.setCause_tap (s : State) (n : Nat) (v : Bool) : (s.setCause n v).tap = s.tap := by
  exact State.setCauseAt_tap ..
@[simp] theorem State.setCause_profiles (s : State) (n : Nat) (v : Bool) : (s.setCause n v).profiles = s.profiles := by
  exact State.setCauseAt_profiles ..
@[simp] theorem State.setCause_portLinks (s : State) (n : Nat) (v : Bool) : (s.setCause n v).portLinks = s.portLinks := by
  exact State.setCauseAt_portLinks ..
@[simp] theorem State.setCause_placedOctets (s : State) (n : Nat) (v : Bool) : (s.setCause n v).placedOctets = s.placedOctets := by
  exact State.setCauseAt_placedOctets ..
@[simp] theorem State.setCause_answer (s : State) (n : Nat) (v : Bool) : (s.setCause n v).answer = s.answer := by
  exact State.setCauseAt_answer ..
@[simp] theorem State.setCause_draws (s : State) (n : Nat) (v : Bool) : (s.setCause n v).draws = s.draws := by
  exact State.setCauseAt_draws ..
@[simp] theorem State.setCause_pending (s : State) (n : Nat) (v : Bool) : (s.setCause n v).pending = s.pending := by
  exact State.setCauseAt_pending ..

/-- The mode after a change of mode. -/
@[simp] theorem State.toModeAt_mode (s : State) (m : Mode) (commit : Nat) :
    (s.toModeAt m commit).mode = { s.mode with mode := m } := by
  unfold State.toModeAt State.raiseAt
  by_cases h : s.mode.mode = m
  · simp only [h, if_pos]; subst h; rfl
  · simp only [h, if_false, State.raise_mode]

@[simp] theorem State.toMode_mode (s : State) (m : Mode) : (s.toMode m).mode = { s.mode with mode := m } :=
  State.toModeAt_mode ..

end Sys2Proof.Machine
end

