-- ==== Sys2Proof/Laws/Frames.lean ====
section
/-! SUPPORT. What the larger shared operations leave alone, one equation each: the state after is the state before but for the
components named in it. A frame of a command follows by rewriting with these instead of unfolding the operation. -/

namespace Sys2Proof.Machine

/-- A fold over steps that each keep a property keeps it. -/
theorem foldl_keeps {A B : Type} (P : B → Prop) (f : B → A → B) (l : List A) (b : B) (h0 : P b)
    (h : ∀ c a, P c → P (f c a)) : P (l.foldl f b) := by
  induction l generalizing b with
  | nil => exact h0
  | cons a rest ih => exact ih _ (h b a h0)

/-! ## Updates of one unit -/

theorem State.modLink_frame (s : State) (n : Nat) (f : DieLink → DieLink) :
    s.modLink n f = { s with dies := (s.modLink n f).dies, portLinks := (s.modLink n f).portLinks } := by
  unfold State.modLink; split <;> rfl

theorem State.setPeer_frame (s : State) (p : Peer) : s.setPeer p = { s with fab := { s.fab with peers := (s.setPeer p).fab.peers } } := rfl

theorem State.park_frame (s : State) (x : CtxId) (v : Inv) : s.park x v = { s with eng := (s.park x v).eng } := by
  unfold State.park; split <;> cases x <;> rfl

theorem State.issueBy_frame (s : State) (x : CtxId) : s.issueBy x = { s with eng := (s.issueBy x).eng } := by
  cases x <;> rfl

theorem State.arbRequest_frame (s : State) (p k unit : Nat) :
    s.arbRequest p k unit = { s with arbs := (s.arbRequest p k unit).arbs } := by
  unfold State.arbRequest; simp only []; split <;> rfl

theorem State.arbDecide_frame (s : State) (p : Nat) : s.arbDecide p = { s with arbs := (s.arbDecide p).arbs } := by
  unfold State.arbDecide; simp only []; repeat' (first | rfl | split)

theorem State.maskUnit_frame (s : State) (unit : Nat) :
    s.maskUnit unit = { s with masked := (s.maskUnit unit).masked, arbs := (s.maskUnit unit).arbs, locks := (s.maskUnit unit).locks } := rfl

/-! ## Frames sent -/

theorem State.enqueue_frame (s : State) (m p : Nat) (f : TxFrame) : s.enqueue m p f = { s with net := (s.enqueue m p f).net } := by
  unfold State.enqueue; repeat' (first | rfl | split)

theorem State.drainWaiting_frame (s : State) (m : Nat) : s.drainWaiting m = { s with net := (s.drainWaiting m).net } := by
  unfold State.drainWaiting
  exact foldl_keeps (fun t : State => t = { s with net := t.net }) _ _ _ rfl fun c w h =>
    (State.enqueue_frame c m w.1 w.2).trans (by rw [h])

theorem State.settleTx_frame (s : State) : s.settleTx = { s with net := s.settleTx.net } := by
  unfold State.settleTx
  refine foldl_keeps (fun t : State => t = { s with net := t.net }) _ _ _ rfl fun c m h => ?_
  split
  · exact h
  · exact (State.drainWaiting_frame c m).trans (by rw [h])

theorem State.rfpEmit_frame (s : State) (m eth : Nat) (ip : BitVec 128) (type : Nat) (msg : Octets) :
    s.rfpEmit m eth ip type msg = { s with net := (s.rfpEmit m eth ip type msg).net } := State.enqueue_frame _ _ _ _

/-- A message along its route is sent by a MAC, or counted in FAB_DROP_HOPS. -/
theorem State.rfpSend_frame (s : State) (uid : BitVec 64) (type dst seq : Nat) (body : Octets) :
    s.rfpSend uid type dst seq body = { s with
      net := (s.rfpSend uid type dst seq body).net
      fab := { s.fab with counters := (s.rfpSend uid type dst seq body).fab.counters } } := by
  unfold State.rfpSend
  split
  · rfl
  · unfold State.rfpToNbr; rw [State.rfpEmit_frame]

theorem State.rfpOwn_frame (s : State) (uid : BitVec 64) (type dst : Nat) (body : Octets) :
    s.rfpOwn uid type dst body = { s with
      net := (s.rfpOwn uid type dst body).net
      fab := { s.fab with ownSeq := s.fab.ownSeq + 1, counters := (s.rfpOwn uid type dst body).fab.counters } } := by
  unfold State.rfpOwn; simp only []; rw [State.rfpSend_frame]; rfl

/-- A stream message changes its peer and what sending changes. -/
theorem State.streamSend_frame (s : State) (uid : BitVec 64) (type : Nat) (body : Octets) :
    s.streamSend uid type body = { s with
      net := (s.streamSend uid type body).net
      fab := { s.fab with peers := (s.streamSend uid type body).fab.peers, counters := (s.streamSend uid type body).fab.counters } } := by
  unfold State.streamSend; simp only []
  split
  · rfl
  · rw [State.rfpSend_frame]; rfl

theorem State.floodNbrs_frame (s : State) (type : Nat) (body : Octets) (but : Option (BitVec 64)) :
    s.floodNbrs type body but = { s with
      net := (s.floodNbrs type body but).net
      fab := { s.fab with ownSeq := (s.floodNbrs type body but).fab.ownSeq } } := by
  have hk : ∃ n q, s.floodNbrs type body but = { s with net := n, fab := { s.fab with ownSeq := q } } := by
    unfold State.floodNbrs
    refine foldl_keeps (fun t : State => ∃ n q, t = { s with net := n, fab := { s.fab with ownSeq := q } }) _ _ _ ⟨_, _, rfl⟩
      fun c n h => ?_
    obtain ⟨_, _, rfl⟩ := h
    exact ⟨_, _, State.rfpEmit_frame _ _ _ _ _ _⟩
  obtain ⟨_, _, h⟩ := hk
  rw [h]

/-- An LSA of ours takes the next number and is sent to the neighbours. -/
theorem State.originate_frame (s : State) : s.originate = { s with
      net := s.originate.net
      fab := { s.fab with lsaSeq := s.fab.lsaSeq + 1, ownSeq := s.originate.fab.ownSeq } } := by
  unfold State.originate; simp only []; rw [State.floodNbrs_frame]

/-! ## Responses, the lease -/

theorem State.queueRsp_frame (s : State) (c gen : Nat) (r : Rsp) :
    (s.queueRsp c gen r).1 = { s with wot := { s.wot with conns := (s.queueRsp c gen r).1.wot.conns } } := by
  unfold State.queueRsp; simp only []; split <;> rfl

/-- A Transom request's response: the request leaves the queue, its connection gets the response or it is no longer outstanding. -/
theorem State.tRespond_frame (s : State) (r : TReq) (ts : Nat) (body : Octets) :
    s.tRespond r ts body = { s with
      eng := { s.eng with treqs := s.eng.treqs.drop 1 }
      wot := { s.wot with
        conns := (s.tRespond r ts body).wot.conns, outstanding := (s.tRespond r ts body).wot.outstanding } } := by
  unfold State.tRespond; simp only []; split <;> rw [State.queueRsp_frame]

theorem State.sendGrant_frame (s : State) : s.sendGrant = { s with dies := s.sendGrant.dies } := by
  unfold State.sendGrant
  refine foldl_keeps (fun t : State => t = { s with dies := t.dies }) _ _ _ rfl fun c d h => ?_
  split
  · rw [h]; rfl
  · exact h

end Sys2Proof.Machine
end

