-- ==== Sys2Proof/Laws/Memory.lean ====
section
/-! SUPPORT. The laws of scratch and response areas: a write keeps the canonical form, puts its octets where it says and
leaves every other offset alone; the areas of a starting invocation have the canonical form. -/

namespace Sys2Proof.Machine

theorem memWrite_wf (o : Octets) : ∀ (m : Mem) (a : Nat), Memory.wf m = true → Memory.wf (memWrite m a o) = true := by
  induction o with
  | nil => intro m a h; exact h
  | cons b rest ih =>
    intro m a h
    exact ih _ _ (tabWf_tabSet (fun _ => 0#8) a b h)

/-- An offset outside the octets written reads as before. -/
theorem memWrite_other (o : Octets) : ∀ (m : Mem) (a i : Nat), i < a ∨ a + o.length ≤ i →
    tabGet (fun _ => 0#8) (memWrite m a o) i = tabGet (fun _ => 0#8) m i := by
  induction o with
  | nil => intro m a i _; rfl
  | cons b rest ih =>
    intro m a i h
    have hi : i ≠ a := by simp only [List.length_cons] at h; omega
    refine (ih _ (a + 1) i (by simp only [List.length_cons] at h; omega)).trans ?_
    exact tabGet_tabSet_other (fun _ => 0#8) m b hi

/-- Octet k of what is written stands at offset a + k. -/
theorem memWrite_at (o : Octets) : ∀ (m : Mem) (a k : Nat) (h : k < o.length),
    tabGet (fun _ => 0#8) (memWrite m a o) (a + k) = o[k] := by
  induction o with
  | nil => intro m a k h; exact absurd h (Nat.not_lt_zero k)
  | cons b rest ih =>
    intro m a k h
    cases k with
    | zero =>
      refine (memWrite_other rest _ (a + 1) (a + 0) (by omega)).trans ?_
      exact tabGet_tabSet_same (fun _ => 0#8) m a b
    | succ n =>
      have := ih (tabSet (fun _ => 0#8) m a b) (a + 1) n (by simpa using h)
      rw [show a + (n + 1) = a + 1 + n by omega]
      simpa [memWrite] using this

theorem setScr_wf (v : Inv) (a : Nat) (o : Octets) (h : Memory.wf v.scratch = true) :
    Memory.wf (v.setScr a o).scratch = true := memWrite_wf o v.scratch a h

theorem empty_wf : Memory.wf [] = true := rfl

/-- No context runs after reset, so no area is held there. -/
theorem reset_no_area (x : CtxId) : State.reset.inv x = none := by
  cases x <;> rfl

end Sys2Proof.Machine
end

