-- ==== Sys2Proof/Laws/Nirm.lean ====
section
/-! SUPPORT. What one Nirm instruction can do: the four ways in which the order of checks of R188 lets it end, each in one
lemma that statements about an instruction cite. -/

namespace Sys2Proof.Machine

/-! ## Issuing changes nothing but the rotation -/

@[simp] theorem State.issueBy_pins (s : State) (x : CtxId) : (s.issueBy x).pins = s.pins := by cases x <;> rfl
@[simp] theorem State.issueBy_mons (s : State) (x : CtxId) : (s.issueBy x).mons = s.mons := by cases x <;> rfl
@[simp] theorem State.issueBy_clock (s : State) (x : CtxId) : (s.issueBy x).clock = s.clock := by cases x <;> rfl
@[simp] theorem State.issueBy_mode (s : State) (x : CtxId) : (s.issueBy x).mode = s.mode := by cases x <;> rfl
@[simp] theorem State.issueBy_otp (s : State) (x : CtxId) : (s.issueBy x).otp = s.otp := by cases x <;> rfl
@[simp] theorem State.issueBy_recorder (s : State) (x : CtxId) : (s.issueBy x).recorder = s.recorder := by cases x <;> rfl
@[simp] theorem State.issueBy_net (s : State) (x : CtxId) : (s.issueBy x).net = s.net := by cases x <;> rfl
@[simp] theorem State.issueBy_wot (s : State) (x : CtxId) : (s.issueBy x).wot = s.wot := by cases x <;> rfl
@[simp] theorem State.issueBy_dies (s : State) (x : CtxId) : (s.issueBy x).dies = s.dies := by cases x <;> rfl
@[simp] theorem State.issueBy_tables (s : State) (x : CtxId) : (s.issueBy x).tables = s.tables := by cases x <;> rfl
@[simp] theorem State.issueBy_sel (s : State) (x : CtxId) : (s.issueBy x).sel = s.sel := by cases x <;> rfl
@[simp] theorem State.issueBy_arbs (s : State) (x : CtxId) : (s.issueBy x).arbs = s.arbs := by cases x <;> rfl
@[simp] theorem State.issueBy_locks (s : State) (x : CtxId) : (s.issueBy x).locks = s.locks := by cases x <;> rfl
@[simp] theorem State.issueBy_masked (s : State) (x : CtxId) : (s.issueBy x).masked = s.masked := by cases x <;> rfl
@[simp] theorem State.issueBy_lease (s : State) (x : CtxId) : (s.issueBy x).lease = s.lease := by cases x <;> rfl
@[simp] theorem State.issueBy_fab (s : State) (x : CtxId) : (s.issueBy x).fab = s.fab := by cases x <;> rfl
@[simp] theorem State.issueBy_tap (s : State) (x : CtxId) : (s.issueBy x).tap = s.tap := by cases x <;> rfl
@[simp] theorem State.issueBy_profiles (s : State) (x : CtxId) : (s.issueBy x).profiles = s.profiles := by cases x <;> rfl
@[simp] theorem State.issueBy_portLinks (s : State) (x : CtxId) : (s.issueBy x).portLinks = s.portLinks := by cases x <;> rfl
@[simp] theorem State.issueBy_placedOctets (s : State) (x : CtxId) : (s.issueBy x).placedOctets = s.placedOctets := by cases x <;> rfl
@[simp] theorem State.issueBy_answer (s : State) (x : CtxId) : (s.issueBy x).answer = s.answer := by cases x <;> rfl
@[simp] theorem State.issueBy_draws (s : State) (x : CtxId) : (s.issueBy x).draws = s.draws := by cases x <;> rfl
@[simp] theorem State.issueBy_pending (s : State) (x : CtxId) : (s.issueBy x).pending = s.pending := by cases x <;> rfl
@[simp] theorem State.issueBy_inv (s : State) (x y : CtxId) : (s.issueBy x).inv y = s.inv y := by cases x <;> cases y <;> rfl
@[simp] theorem State.issueBy_cmds (s : State) (x : CtxId) : (s.issueBy x).eng.cmds = s.eng.cmds := by cases x <;> rfl
@[simp] theorem State.issueBy_treqs (s : State) (x : CtxId) : (s.issueBy x).eng.treqs = s.eng.treqs := by cases x <;> rfl

section
variable {s : State} {x : CtxId} {v : Inv} {w : W32} {o : Op} {asks : Op → Inv → Bool} {act : Inv → W32 → NRes}

/-- A context that stands on instruction o and can pay for it does what `act` says. -/
theorem State.nirm_acts (hv : s.inv x = some v) (hw : v.word = some w) (ho : opOf w = some o) (hi : v.wait = .none)
    (ht : s.turn x = true) (hb : v.charged + o.charge ≤ v.budget) (ha : asks o v = true) :
    s.nirm x asks act = match act v w with
      | .fault code => (s.invFault x v code v.pc v.charged).issueBy x
      | .next t u =>
        if v.pc + 1 < v.len then (t.setInv x (some (u.advance (v.pc + 1) o.charge .none))).issueBy x
        else (s.invFault x v fPc v.pc v.charged).issueBy x
      | .jump u target =>
        if 0 ≤ target ∧ target < v.len then (s.setInv x (some (u.advance target.toNat o.charge .none))).issueBy x
        else (s.invFault x v fPc v.pc v.charged).issueBy x
      | .pause t u wt =>
        if v.pc + 1 < v.len then (t.park x (u.advance (v.pc + 1) o.charge wt)).issueBy x
        else (s.invFault x v fPc v.pc v.charged).issueBy x
      | .ended t => t.issueBy x := by
  unfold State.nirm
  rw [hv]
  simp only [hw, hi, decide_true, ho, ha, ht]
  refine (if_neg (by simp)).trans ((if_neg (by simp)).trans ((if_neg (by omega)).trans ?_))
  cases act v w <;> rfl

theorem runNirm_next {t : State} {u : Inv} (hx : Wf.ctxId x = true) (hv : s.inv x = some v) (hw : v.word = some w)
    (ho : opOf w = some o) (hi : v.wait = .none) (ht : s.turn x = true) (hb : v.charged + o.charge ≤ v.budget) (ha : asks o v = true)
    (hr : act v w = .next t u) (hp : v.pc + 1 < v.len) :
    runNirm s x asks act = .next ((t.setInv x (some (u.advance (v.pc + 1) o.charge .none))).issueBy x) := by
  unfold runNirm
  rw [State.nirm_acts hv hw ho hi ht hb ha, hr, hx]
  simp [outcome, hp]

theorem runNirm_pause {t : State} {u : Inv} {wt : Wait} (hx : Wf.ctxId x = true) (hv : s.inv x = some v)
    (hw : v.word = some w) (ho : opOf w = some o) (hi : v.wait = .none) (ht : s.turn x = true) (hb : v.charged + o.charge ≤ v.budget)
    (ha : asks o v = true) (hr : act v w = .pause t u wt) (hp : v.pc + 1 < v.len) :
    runNirm s x asks act = .next ((t.park x (u.advance (v.pc + 1) o.charge wt)).issueBy x) := by
  unfold runNirm
  rw [State.nirm_acts hv hw ho hi ht hb ha, hr, hx]
  simp [outcome, hp]

theorem runNirm_jump {u : Inv} {target : Int} (hx : Wf.ctxId x = true) (hv : s.inv x = some v) (hw : v.word = some w)
    (ho : opOf w = some o) (hi : v.wait = .none) (ht : s.turn x = true) (hb : v.charged + o.charge ≤ v.budget) (ha : asks o v = true)
    (hr : act v w = .jump u target) (h0 : 0 ≤ target) (h1 : target < v.len) :
    runNirm s x asks act = .next ((s.setInv x (some (u.advance target.toNat o.charge .none))).issueBy x) := by
  unfold runNirm
  rw [State.nirm_acts hv hw ho hi ht hb ha, hr, hx]
  simp [outcome, h0, h1]

theorem runNirm_fault {code : Nat} (hx : Wf.ctxId x = true) (hv : s.inv x = some v) (hw : v.word = some w)
    (ho : opOf w = some o) (hi : v.wait = .none) (ht : s.turn x = true) (hb : v.charged + o.charge ≤ v.budget) (ha : asks o v = true)
    (hr : act v w = .fault code) : runNirm s x asks act = .next ((s.invFault x v code v.pc v.charged).issueBy x) := by
  unfold runNirm
  rw [State.nirm_acts hv hw ho hi ht hb ha, hr, hx]
  simp [outcome]

theorem runNirm_ended {t : State} (hx : Wf.ctxId x = true) (hv : s.inv x = some v) (hw : v.word = some w)
    (ho : opOf w = some o) (hi : v.wait = .none) (ht : s.turn x = true) (hb : v.charged + o.charge ≤ v.budget) (ha : asks o v = true)
    (hr : act v w = .ended t) : runNirm s x asks act = .next (t.issueBy x) := by
  unfold runNirm
  rw [State.nirm_acts hv hw ho hi ht hb ha, hr, hx]
  simp [outcome]

/-- A word that does not decode ends the invocation with ILLEGAL whichever instruction's command executes it. -/
theorem runNirm_illegal (hx : Wf.ctxId x = true) (hv : s.inv x = some v) (hw : v.word = some w) (ho : opOf w = none)
    (hi : v.wait = .none) (ht : s.turn x = true) : runNirm s x asks act = .next ((s.invFault x v fIllegal v.pc v.charged).issueBy x) := by
  unfold runNirm State.nirm
  rw [hv]
  simp [hw, hi, ho, hx, ht, outcome]

end

end Sys2Proof.Machine
end

