-- ==== Sys2Proof/Machine/Page.lean ====
section
/-! DEFINITION. What the device programs into flash pages (09): tags and metadata (Tables 9-8, 9-9), data unit numbers and
AES-256-XTS (R286, R287), PCRC, parity pages and rebuilding (R289), block summaries (Table 9-10), codewords with their scrambler
(R282), and the key image (R325, R326). `State.slots` keeps what these octets are made from. -/

namespace Sys2Proof.Machine

/-! ## Tags (Table 9-9) -/

def SlotKind.isParity : SlotKind → Bool
  | .parity _ => true
  | .data | .filler | .summary => false

/-- Octet 7 of the tag. -/
def Slot.tagFlags (t : Slot) (pic : Nat) : Nat :=
  pic % 4 + 4 * bit01 t.slc + 8 * bit01 t.sys + 16 * bit01 t.kind.isParity + 32 * bit01 (decide (t.kind = .parity true)) +
  64 * bit01 t.keyrec + 128 * bit01 (decide (t.kind = .summary))

/-- The page tag of page-in-chunk `pic`: equal on the four pages except for PIC (R284). -/
def Slot.tag (t : Slot) (pic : Nat) : Octets :=
  leOctets 4 t.handle.toNat ++ leOctets 3 t.chunk ++ [BitVec.ofNat 8 (t.tagFlags pic)] ++ leOctets 8 t.seq

/-! ## Encryption (R286, R287) -/

/-- The data unit number of codeword c, or of KEYREC. -/
def Slot.dataUnit (t : Slot) (pic c : Nat) (keyrec : Bool) : Nat :=
  t.seq % 2 ^ 64 * 2 ^ 64 + t.handle.toNat * 2 ^ 32 + t.chunk % 2 ^ 24 * 2 ^ 8 + pic % 4 * 2 ^ 6 +
  (if keyrec then 0 else c % 4) * 2 ^ 4 + bit01 keyrec

/-- Multiplication of a tweak by the primitive element of GF(2^128) (IEEE 1619). -/
def xtsDouble (t : Nat) : Nat := if t.testBit 127 then (t * 2) % 2 ^ 128 ^^^ 0x87 else t * 2

/-- The 16-octet blocks of a data unit encrypted under the data key, from a tweak on. -/
def xtsBlocks (key : Octets) : Nat → Nat → Octets → Octets
  | 0, _, _ => []
  | n + 1, tweak, o =>
    let m := leOctets 16 tweak
    xorOctets (aesEncrypt key (xorOctets (o.take 16) m)) m ++ xtsBlocks key n (xtsDouble tweak) (o.drop 16)

/-- AES-256-XTS of a data unit under a 512-bit key: the first 256 bits encrypt data, the others the tweak; the data unit number is
taken little-endian. -/
def xtsEncrypt (key : BitVec 512) (unit : Nat) (o : Octets) : Octets :=
  let k := beOctets 64 key.toNat
  xtsBlocks (k.take 32) (ceilDiv o.length 16) (leNat (aesEncrypt (k.drop 32) (leOctets 16 unit))) o

/-- The page is encrypted: an object page, or a system page other than a key table's (R286). -/
def Slot.encrypted (t : Slot) : Bool := decide (t.kind = .data) && !(t.sys && decide (t.chunk / 2 ^ 20 = 7))

/-! ## Data and metadata areas (R279, R283, R284, Table 9-8) -/

/-- The plain data area of plane `pic`: chunk octets pic × 16,384 on, zero beyond the value's end. -/
def Slot.plainData (t : Slot) (pic : Nat) : Octets := fitTo 16384 (slice t.data (pic * 16384) 16384)

/-- The plain KEYREC octets: the key record in page 0 of chunk 0, 0 in every other page. -/
def Slot.plainKeyrec (t : Slot) (pic : Nat) : Octets := if t.keyrec && decide (pic = 0) then fitTo 272 t.record else zeros 272

/-- The data area as programmed before scrambling. -/
def Slot.storedData (t : Slot) (pic : Nat) : Octets :=
  if t.encrypted then
    (upto 4).flatMap (fun c => xtsEncrypt t.key (t.dataUnit pic c false) (slice (t.plainData pic) (c * 4096) 4096))
  else t.plainData pic

def Slot.storedKeyrec (t : Slot) (pic : Nat) : Octets :=
  if t.encrypted && t.keyrec && decide (pic = 0) then xtsEncrypt t.key (t.dataUnit pic 0 true) (t.plainKeyrec pic)
  else t.plainKeyrec pic

/-- Metadata octets 32 to 439, around the KEYREC octets given. -/
def Slot.midArea (t : Slot) (keyrec : Octets) : Octets :=
  leOctets 2 (if t.handle = noHandle then 0 else t.nsid % 4096) ++ leOctets 2 (if t.encrypted then t.kslot % 2048 else 0) ++ zeros 12 ++
  keyrec ++ zeros 120

/-- PCRC of a page: CRC-32C over the data area, metadata octets 0 to 439 and 444 to 447, data and KEYREC as plaintext. -/
def pcrcOf (data tag tagpar mid pcrcpar : Octets) : Octets := leOctets 4 (crc32c (data ++ tag ++ tagpar ++ mid ++ pcrcpar)).toNat

/-- PCRC of a page that is no parity page. -/
def Slot.pcrc (t : Slot) (pic : Nat) : Octets :=
  pcrcOf (t.plainData pic) (t.tag pic) (zeros 16) (t.midArea (t.plainKeyrec pic)) (zeros 4)

/-- The stored octets of a data page that its stripe's parity covers (R289): data area, TAG, octets 32 to 439, PCRC. -/
def Slot.covered (t : Slot) (pic : Nat) : Octets :=
  t.storedData pic ++ t.tag pic ++ t.midArea (t.storedKeyrec pic) ++ t.pcrc pic

/-- Octets that parity covers in a page: 16,384 + 16 + 408 + 4. -/
def coveredLen : Nat := 16812

/-! ## Parity (R289, R320) -/

/-- Multiplication by g = 2 in GF(2^8) with polynomial 0x11D. -/
def gfDouble (b : Byte) : Byte := if b.getLsbD 7 then (b <<< 1) ^^^ 0x1D#8 else b <<< 1

/-- P of covered octets, in data position order: their XOR. -/
def parityP (pages : List Octets) : Octets := pages.foldr xorOctets (zeros coveredLen)

/-- Q of covered octets: the sum of g^i times page i. -/
def parityQ (pages : List Octets) : Octets := pages.foldr (fun p q => xorOctets p (q.map gfDouble)) (zeros coveredLen)

/-- The covered octets of the 14 data positions of stripe j on plane `pic`; a position with no chunk counts as zero. -/
def Die.stripePages (d : Die) (x : Super) (j pic : Nat) : List Octets :=
  (upto 14).map (fun i => match (x.pcaOn j (dataChannel (14 * j + i))).bind d.slot with
    | some t => (if t.sys && decide (t.kind = .data) then { t with data := d.sysData t } else t).covered pic
    | none => zeros coveredLen)

/-- The parity page's own areas: data area, TAG, TAGPAR, octets 32 to 439, PCRC, PCRCPAR. -/
def Die.parityPage (d : Die) (x : Super) (t : Slot) (q : Bool) (pic : Nat) : Octets × Octets :=
  let pages := d.stripePages x t.chunk pic
  let par := if q then parityQ pages else parityP pages
  let data := par.take 16384
  let tagpar := slice par 16384 16
  let mid := slice par 16400 408
  let pcrcpar := slice par 16808 4
  (data, t.tag pic ++ tagpar ++ mid ++ pcrcOf data (t.tag pic) tagpar mid pcrcpar ++ pcrcpar)

/-- A data page rebuilt from P and the 13 other data pages of its stripe: its TAG comes from TAGPAR, its PCRC from PCRCPAR. -/
def rebuildP (p : Octets) (others : List Octets) : Octets := others.foldr xorOctets p

/-! ## Block summaries (R291, Table 9-10) -/

/-- The summary of block b of superblock k, `n` of its slots, programmed with SEQ `close`. -/
def State.summary (s : State) (d k b close : Nat) : Octets :=
  let x := s.die d
  let slc := match x.super k with
    | some u => u.slc
    | none => false
  let n := s.slotsOf slc - 1
  let held := (upto n).filterMap (fun i => x.slot (pcaOf b i))
  let seqs := held.map (fun t => t.seq)
  let high := seqs.foldl max 0
  let low := seqs.foldl min (seqs.headD 0)
  let entries := (upto n).flatMap (fun i => match x.slot (pcaOf b i) with
    | some t => t.tag 0
    | none => zeros 16)
  let head := leOctets 4 0x424C4B53 ++ [1#8, BitVec.ofNat 8 (bit01 slc)] ++ leOctets 2 n ++ fitTo 4 (s.profile.take 4) ++
    leOctets 4 (k % 1048576) ++ leOctets 8 low ++ leOctets 8 high ++ leOctets 8 close ++ leOctets 4 (x.block b).opened ++ zeros 16
  head ++ leOctets 4 (crc32c (head ++ zeros 4 ++ entries)).toNat ++ entries

/-- Data area and metadata area of plane `pic` of the slot at `pca`. -/
def State.pageAreas (s : State) (d pca pic : Nat) (t : Slot) : Octets × Octets :=
  let x := s.die d
  match t.kind with
  | .parity q => (match (x.superOf (pcaBlock pca)).bind x.super with
    | some u => x.parityPage u t q pic
    | none => ([], []))
  | .summary =>
    let own := { t with data := s.summary d ((x.superOf (pcaBlock pca)).getD 0) (pcaBlock pca) t.seq }
    (own.storedData pic, own.tag pic ++ zeros 16 ++ own.midArea (zeros 272) ++ own.pcrc pic ++ zeros 4)
  | .data | .filler =>
    let t := if t.sys && decide (t.kind = .data) then { t with data := x.sysData t } else t
    (t.storedData pic, t.tag pic ++ zeros 16 ++ t.midArea (t.storedKeyrec pic) ++ t.pcrc pic ++ zeros 4)

/-! ## Codewords (R282) -/

/-- One octet of the scrambler x^23 + x^18 + 1, most significant bit first, and its state after it. -/
def scrambleOctet (st : BitVec 23) : Byte × BitVec 23 :=
  (upto 8).foldl (fun acc _ =>
    (acc.1 <<< 1 ||| (if acc.2.getLsbD 22 then 1#8 else 0#8),
     acc.2 <<< 1 ||| (if (acc.2.getLsbD 22).xor (acc.2.getLsbD 17) then 1#23 else 0#23))) (0#8, st)

/-- Octets scrambled from a state of the register. -/
def scramble : BitVec 23 → Octets → Octets
  | _, [] => []
  | st, b :: rest =>
    let r := scrambleOctet st
    (b ^^^ r.1) :: scramble r.2 rest

/-- The seed of codeword c of a plane of a slot: CRC-32C of the little-endian word of address, plane and c, bit 0 forced to 1. -/
def scrambleSeed (pca plane c : Nat) : BitVec 23 :=
  (crc32c (leOctets 8 (pca % 2 ^ 36 + plane % 4 * 2 ^ 36 + c % 4 * 2 ^ 38))).setWidth 23 ||| 1#23

/-- Codeword c of a page: 4,096 data octets, 112 metadata octets, 400 octets of LDPC parity, whose code is not specified; then
scrambled. -/
def codeword (data mdata : Octets) (pca plane c : Nat) : Octets :=
  let body := slice data (c * 4096) 4096 ++ slice mdata (c * 112) 112
  scramble (scrambleSeed pca plane c) (body ++ fitTo 400 (Config.ldpcParity body))

/-- The physical page that the device programs for plane `plane` of the slot at `pca`: four codewords, then pad octets, whose
values are not specified. -/
def State.physicalPage (s : State) (d pca plane : Nat) (t : Slot) : Octets :=
  let p := s.pageAreas d pca plane t
  (upto 4).flatMap (fun c => codeword p.1 p.2 pca plane c) ++
  (upto (((s.die d).channel (pcaChannel pca)).ppSize - 18432)).map Config.padOctet

/-! ## Key images (R325, R326) -/

/-- One step of the key wrap of RFC 3394: register A and the 64-bit blocks, block i at counter t. -/
def wrapStep (kek : Octets) (acc : Octets × List Octets) (i t : Nat) : Octets × List Octets :=
  let b := aesEncrypt kek (acc.1 ++ acc.2.getD i [])
  (xorOctets (b.take 8) (beOctets 8 t), acc.2.set i (b.drop 8))

/-- AES key wrap of a 64-octet key: 72 octets. -/
def keyWrap (kek key : Octets) : Octets :=
  let blocks := (upto 8).map (fun i => slice key (8 * i) 8)
  let out := (upto 48).foldl (fun acc n => wrapStep kek acc (n % 8) (n + 1)) (List.replicate 8 0xA6#8, blocks)
  out.1 ++ out.2.flatten

/-- The key-encryption key of the media root key in force. -/
def State.kek (s : State) : Octets :=
  hkdfExpand (hkdfExtract (zeros 32) (beOctets 32 (s.otp.mediaRoot.getD Config.factoryMediaRoot).toNat)) (ascii "ezern slot kek") 32

/-- The key image of a die (Table 10-9). -/
def State.keyImage (s : State) (d : Nat) : Octets :=
  let x := s.die d
  let body := leOctets 8 x.keySeq ++ (upto 1025).flatMap (fun k => keyWrap s.kek (beOctets 64 (tabGet (fun _ => 0) x.keys k).toNat))
  leOctets 4 0x4B595442 ++ leOctets 4 (crc32c body).toNat ++ body

end Sys2Proof.Machine
end

