-- ==== Sys2Proof/Tests/Slice0.lean ====
section
/-! SUPPORT. Tests: the well-formedness checks refuse what names no unit, a few steps with results worked out by hand from
the spec, and for every statement a witness that meets its hypotheses, clause by clause. -/

set_option Elab.async false

namespace Sys2Proof.Tests
open Sys2Proof Sys2Proof.Machine Sys2Proof.Stmt

/-! ## Well-formedness: for each check a term at the edge and the first ill-formed one -/

theorem test_wf_units :
    (Wf.instr (.dumpDone 3) = true ∧ Wf.instr (.dumpDone 4) = false) ∧
    (Wf.instr (.supplyTrip 4 true) = true ∧ Wf.instr (.supplyTrip 5 true) = false) ∧
    (Wf.instr (.fold 0 3) = true ∧ Wf.instr (.fold 0 4) = false) ∧
    (Wf.instr (.linkUp 127) = true ∧ Wf.instr (.linkUp 128) = false) ∧
    (Wf.instr (.pauseExpiry 0 7) = true ∧ Wf.instr (.pauseExpiry 0 8) = false) ∧
    (Wf.instr (.laneFault 127 1) = true ∧ Wf.instr (.laneFault 128 1) = false) ∧
    (Wf.instr (.laneFault 0 2) = true ∧ Wf.instr (.laneFault 0 0) = false ∧ Wf.instr (.laneFault 0 3) = false) ∧
    (Wf.instr (.ackTimer 65535) = true ∧ Wf.instr (.ackTimer 65536) = false) ∧
    (Wf.instr (.responseSend 0 65535) = true ∧ Wf.instr (.responseSend 0 65536) = false) ∧
    (Wf.instr (.engineParityError 511) = true ∧ Wf.instr (.engineParityError 512) = false) ∧
    (Wf.instr (.add (.eng 511 7)) = true ∧ Wf.instr (.add (.eng 512 7)) = false ∧ Wf.instr (.add (.eng 0 8)) = false) ∧
    (Wf.instr (.add (.mgmt 4)) = true ∧ Wf.instr (.add (.mgmt 5)) = false) ∧
    (Wf.instr (.get 0 7) = true ∧ Wf.instr (.get 0 8) = false) ∧
    (Wf.instr (.clusterEccError 63 .state) = true ∧ Wf.instr (.clusterEccError 64 .state) = false) ∧
    (Wf.instr (.selScrub 15 [] []) = true ∧ Wf.instr (.selScrub 16 [] []) = false) ∧
    (Wf.instr (.hbmUe 0 31 .images) = true ∧ Wf.instr (.hbmUe 0 32 .images) = false) ∧
    (Wf.instr (.dlinkCrcError 15) = true ∧ Wf.instr (.dlinkCrcError 16) = false) := by decide

theorem test_wf_media_and_numbers :
    (Wf.instr (.recentre 0 63 3 ⟨true, []⟩ [⟨71, 3, 127, 0⟩]) = true ∧ Wf.instr (.recentre 0 64 3 ⟨true, []⟩ []) = false ∧
      Wf.instr (.recentre 0 63 4 ⟨true, []⟩ []) = false ∧ Wf.instr (.recentre 0 63 3 ⟨true, []⟩ [⟨72, 3, 127, 0⟩]) = false ∧
      Wf.instr (.recentre 0 63 3 ⟨true, []⟩ [⟨71, 4, 127, 0⟩]) = false ∧ Wf.instr (.recentre 0 63 3 ⟨true, []⟩ [⟨71, 3, 128, 0⟩]) = false) ∧
    (Wf.instr (.lunTimeout 0 1023) = true ∧ Wf.instr (.lunTimeout 0 1024) = false) ∧
    (Wf.instr (.eraseDone 0 16777215 true) = true ∧ Wf.instr (.eraseDone 0 16777216 true) = false) ∧
    (Wf.instr (.chunkVerified 0 68719476735 .programFailed) = true ∧
      Wf.instr (.chunkVerified 0 68719476736 .programFailed) = false) ∧
    (Wf.instr (.mediaResult (.eng 0 0) 7) = true ∧ Wf.instr (.mediaResult (.eng 0 0) 8) = false) ∧
    (Wf.instr (.mpTrigRun 0 32) = true ∧ Wf.instr (.mpTrigRun 0 31) = false ∧ Wf.instr (.mpTrigRun 0 64) = false) ∧
    (Wf.instr (.fnStopComplete 50) = true ∧ Wf.instr (.fnStopComplete 51) = false) ∧
    (Wf.instr (.saggarCopyDone (2 ^ 64 - 1)) = true ∧ Wf.instr (.saggarCopyDone (2 ^ 64)) = false) ∧
    (Wf.instr (.stemResolve 65535) = true ∧ Wf.instr (.stemResolve 65536) = false) ∧
    (Wf.instr (.recorderUe 3 65535) = true ∧ Wf.instr (.recorderUe 3 65536) = false) ∧
    (Wf.instr (.stackLoss 0 1) = true ∧ Wf.instr (.stackLoss 0 0) = false ∧ Wf.instr (.stackLoss 0 4) = false) ∧
    (Wf.instr (.lowRegisterRead 0 65535) = true ∧ Wf.instr (.lowRegisterRead 0 65536) = false) := by decide

/-- Place codes: class 0x0B arbiter 15 of region 3 of store die 3 stands, index 16 does not; a lock class is no arbiter; a
flash-channel arbiter has 7 requesters. -/
theorem test_wf_places :
    (Wf.instr (.arbDecision 0x98B0F) = true ∧ Wf.instr (.arbDecision 0x98B10) = false ∧ Wf.instr (.arbDecision 0x00F00) = false) ∧
    (Wf.instr (.arbRequest 0x98B0F 6 0x98B0F) = true ∧ Wf.instr (.arbRequest 0x98B0F 7 0x98B0F) = false ∧
      Wf.instr (.arbRequest 0x98B0F 6 0x9EB0F) = false) ∧
    (Wf.instr (.lockGrant 0x00FFF) = true ∧ Wf.instr (.lockGrant 0x01000) = false) := by decide

/-- An ill-formed command stops with the one fault. -/
theorem test_ill_formed_stops : exec (.linkUp 128) State.reset = .fault .noUnit ∧
    exec (.mpTrigRun 0 31) State.reset = .fault .noUnit := ⟨rfl, rfl⟩

/-! ## Witnesses: states and operands that meet the hypotheses of each statement, clause by clause -/

/-- A store die in service with a live home part. -/
def wDie : Die := { inReset := false, online := true, live := true, ready := true, stackTrained := true }

/-- A package in SERVICE, its four store dies in service. -/
def wServe : State := { mode := { mode := .service, mounted := true }, dies := [(0, wDie), (1, wDie), (2, wDie), (3, wDie)] }

/-- A package in `m` with nothing in service. -/
def wMode (m : Mode) : State := { mode := { mode := m } }

/-- A package in `m` whose dump stands at `p`. -/
def wDump (m : Mode) (p : DumpPhase) (dies : Tab Die) : State := { mode := { mode := m, dump := p }, dies := dies }

theorem witness_StepRunsFront : ({ pending := [.powerOn] } : State).pending = Instr.powerOn :: [] := rfl

theorem witness_IdleStepTicks : State.reset.pending = [] ∧ State.reset.pins.porst = true ∧
    ({ pins := { porst := false } } : State).pending = [] ∧ ({ pins := { porst := false } } : State).pins.porst = false := by
  decide

theorem witness_WellFormedRuns : Wf.instr (.linkUp 127) = true ∧ Wf.instr (.linkUp 128) = false := by decide

theorem witness_ExecKeepsQueue : ∃ t, exec .refclkRelock State.reset = .next t := ⟨_, rfl⟩

theorem witness_WarmResets :
    (Awake wServe ∧ SomeLive wServe) ∧ (Awake (wMode .service) ∧ ¬ SomeLive (wMode .service)) ∧
    ({ wServe with mode := { wServe.mode with resetScheduled := true } } : State).mode.resetScheduled = true ∧
    ¬ Awake State.reset ∧
    ((wDump .holdup .done []).mode.mode = .holdup ∧ (wDump .holdup .done []).mode.dump = .done ∧
      (wDump .holdup .done []).pins.pfail = true ∧ (wDump .holdup .done []).pins.supplyBad = []) ∧
    (({ clock := { rootLock := true } } : State).mode.mode = .reset ∧ ({ clock := { rootLock := true } } : State).pins = {} ∧
      ({ clock := { rootLock := true } } : State).clock.rootLock = true ∧
      ∀ d, d < 4 → (({ clock := { rootLock := true } } : State).die d).inReset = true) :=
  ⟨⟨⟨by decide, by decide⟩, 3, by decide⟩, ⟨⟨by decide, by decide⟩, fun ⟨_, _, h⟩ => nomatch h⟩, by decide,
    fun h => h.1 rfl, by decide, by decide⟩

theorem witness_HoldupBegins : (Awake wServe ∧ SomeLive wServe) ∧ (Awake (wMode .boot) ∧ ¬ SomeLive (wMode .boot)) ∧
    ((wDump .reset .idle []).mode.mode = .reset ∧ (wDump .reset .idle []).mode.dump = .idle) ∧
    (wDump .reset .done []).mode.dump = .done :=
  ⟨⟨⟨by decide, by decide⟩, 0, by decide⟩, ⟨⟨by decide, by decide⟩, fun ⟨_, _, h⟩ => nomatch h⟩, by decide, by decide⟩

theorem witness_DumpSteps :
    ((wDump .holdup .programs [(3, wDie)]).mode.dump = .programs ∧ DumpOwed (wDump .holdup .programs [(3, wDie)])) ∧
    ((wDump .holdup .programs []).mode.dump = .programs ∧ ¬ DumpOwed (wDump .holdup .programs [])) ∧
    ((wDump .holdup .dumping [(3, wDie)]).mode.dump = .dumping ∧ ((wDump .holdup .dumping [(3, wDie)]).die 3).live = true ∧
      ((wDump .holdup .dumping [(3, wDie)]).die 3).dumped = false ∧ (wDump .holdup .dumping [(3, wDie)]).mode.mode = .holdup) ∧
    ((wDump .reset .dumping [(0, wDie)]).mode.dump = .dumping ∧ ((wDump .reset .dumping [(0, wDie)]).die 0).live = true ∧
      ((wDump .reset .dumping [(0, wDie)]).die 0).dumped = false ∧ (wDump .reset .dumping [(0, wDie)]).mode.mode = .reset) :=
  ⟨⟨by decide, 3, by decide⟩, ⟨by decide, fun ⟨_, _, h, _⟩ => nomatch h⟩, by decide, by decide⟩

theorem witness_ReferenceClock : ({ clock := { rootLock := true } } : State).clock.rootLock = true ∧
    State.reset.clock.rootLock = false := by decide

/-- Samples of 100, 97, 98 and 115 °C, after one of 115 °C. -/
theorem witness_TemperatureSamples : (4 : Nat) < 5 ∧ (400 : Int) ≤ (400#12).toInt ∧ (388#12).toInt ≤ 388 ∧
    (388 < (392#12).toInt ∧ (392#12).toInt < 400) ∧ ((State.reset.mon 4).hot = false) ∧
    ((460 : Int) ≤ (460#12).toInt ∧ (({ mons := [(4, { over115 := true })] } : State).mon 4).over115 = true) ∧
    (∀ e, e < 5 → e ≠ 4 → (State.reset.mon e).tj.toInt < 400) ∧ ((459#12).toInt < 460 ∧ (400 : Int) ≤ (459#12).toInt) := by
  decide

/-- A package in `m` whose lease is as given. -/
def wLease (m : Mode) (l : Lease) : State := { wServe with mode := { mode := m }, lease := l }

theorem witness_LeaseGrants :
    (∀ d, d < 4 → (wServe.die d).inReset = false ∧ (wServe.die d).stackLost = false ∧ (wServe.die d).cascade = true ∧
      (wServe.die d).cause ≠ 1) ∧ wServe.mode.mode ≠ .reset ∧ wServe.mode.mode ≠ .holdup ∧ wServe.lease.state ≠ .held ∧
    (wServe.lease.state = .none ∧ wServe.mode.mode ≠ .boot ∧ wServe.mode.mode ≠ .elect) ∧
    (wLease .elect {}).mode.mode = .elect ∧
    ((wLease .elect { requests := [3] }).lease.state = .none ∧ 3 ∈ (wLease .elect { requests := [3] }).lease.requests ∧
      (wLease .elect { requests := [3] }).otp.masterPref < 4) ∧
    ((wLease .service { state := .gap, named := 3, requests := [3] }).lease.named = 3 ∧
      (wLease .service { state := .gap, named := 3, requests := [3] }).mayRequestLease 3 = true) ∧
    ((wLease .service { state := .gap }).lease.state = .gap ∧ (wLease .service { state := .gap }).lease.requests = []) := by
  decide

theorem witness_LeaseEnds :
    ((wLease .service { state := .held, holder := 3 }).lease.state = .held ∧
      (wLease .service { state := .held, holder := 3 }).lease.refuse = none ∧
      (wLease .service { state := .held, holder := 3 }).mode.mode ≠ .reset) ∧
    (wLease .service { state := .held, holder := 3, refuse := some 0 }).lease.refuse = some 0 ∧
    ((wLease .elect {}).mode.mode = .elect ∧ (wLease .elect {}).lease.state = .none) ∧
    (wServe.lease.state ≠ .held ∧ wServe.mode.mode = .service ∧ wServe.cause 3 = false) := by decide

/-! ### BOOT, LINKUP, MOUNT, FORMAT -/

/-- The CRC-32C register after 0, 32, 64 … 512 zero octets. -/
def wCrcs : List Nat := [4294967295, 1970194773, 4231468184, 2920151892, 4158167844, 475290725, 2345306063, 3070562025,
  1200442991, 3226162417, 64332339, 3784981021, 1158271177, 3710003176, 3425213895, 6515133, 3473084991]

theorem wCrcs_step : ∀ k, k < 16 →
    (zeros 32).foldl (crcStep 0x82F63B78#32) (BitVec.ofNat 32 wCrcs[k]!) = BitVec.ofNat 32 wCrcs[k + 1]! := by
  decide +kernel

theorem wCrcs_fold : ∀ k, k ≤ 16 →
    (zeros (32 * k)).foldl (crcStep 0x82F63B78#32) 0xFFFFFFFF#32 = BitVec.ofNat 32 wCrcs[k]! := by
  intro k
  induction k with
  | zero => intro _; rfl
  | succ k ih =>
    intro h
    have e : zeros (32 * (k + 1)) = zeros (32 * k) ++ zeros 32 :=
      (List.replicate_append_replicate (n := 32 * k) (m := 32)).symm
    rw [e, List.foldl_append, ih (by omega)]
    exact wCrcs_step k (by omega)

theorem wCrc : crc32c (zeros 512) = 821882304#32 := by
  show ~~~((zeros (32 * 16)).foldl _ _) = _
  exact (congrArg (~~~ ·) (wCrcs_fold 16 (by decide))).trans (by decide)

/-- The header and section table of an image of 864 octets: PROFILES of one profile of zeros, and an empty CONFIG. -/
def wHead : Octets :=
  leOctets 4 0x455A4249 ++ leOctets 4 1 ++ leOctets 4 7 ++ leOctets 4 864 ++ leOctets 4 2 ++ zeros 12 ++
  (leOctets 4 1 ++ leOctets 4 256 ++ leOctets 4 512 ++ leOctets 4 821882304) ++ (leOctets 4 3 ++ leOctets 4 256 ++ zeros 8)
/-- That image, its signature zeros. -/
def wImage : Octets := wHead ++ zeros 800

theorem wImage_sections : imageHeaderOk wImage = true ∧ imageSections wImage = [⟨1, 256, 512, 821882304⟩, ⟨3, 256, 0, 0⟩] ∧
    sectionOf wImage 2 = none ∧ sectionOf wImage 4 = none := by decide +kernel

theorem wHead_len : wHead.length = 64 := rfl
theorem wImage_body : sectionOctets wImage ⟨1, 256, 512, 821882304⟩ = zeros 512 := by decide +kernel

theorem wImage_check : imageCheck wImage = if !Config.signatureVerifies (fitTo (imageLength wImage) wImage) then 3 else 0 := by
  have e : sectionOctets wImage ⟨3, 256, 0, 0⟩ = [] := by decide +kernel
  unfold imageCheck
  rw [wImage_sections.1, wImage_sections.2.1]
  simp [wImage_body, wCrc, e]
  intro h; exact absurd rfl h

/-- No slot, and slot 1 valid where the boot ROM's key accepts its signature. -/
theorem witness_BootEnds : (wMode .boot).mode.mode = .boot ∧ (wMode .boot).mode.bootFailed = false ∧
    (bootFind ⟨true, [], []⟩).slot = none ∧
    (Config.signatureVerifies (fitTo (imageLength wImage) wImage) = true → (bootFind ⟨true, [], wImage⟩).slot = some 1) ∧
    sectionOf wImage 2 = none ∧ sectionOf wImage 4 = none := by
  refine ⟨rfl, rfl, by decide, fun h => ?_, wImage_sections.2.2.1, wImage_sections.2.2.2⟩
  have a : imageHeaderOk ([] : Octets) = false := by decide
  have b : imageCheck wImage = 0 := by rw [wImage_check, h]; rfl
  simp [bootFind, b, a]

/-- Port group 31 with its MAC 124, in LINKUP. -/
def wLinkup (macs : Tab Mac) (lanes : Tab Lane) : State :=
  { wServe with mode := { mode := .linkup }, net := { macs := macs, lanes := lanes } }

/-- A profile that every die matches, of MAXBIN 1,200 MT/s, N_Q 256, BPP 1,024 and PPSIZE 18,432. -/
def wProfile : Octets :=
  zeros 16 ++ leOctets 2 1200 ++ leOctets 2 256 ++ leOctets 2 1024 ++ leOctets 2 18432 ++ zeros 488

/-- A good die of that profile. -/
def wId : DieId := { id := zeros 6, maxBin := 8, good := true, nq := 256, bpp := 1024, ppSize := 18432 }

theorem witness_LinkupTraining :
    ((wMode .linkup).mode.mode = .linkup ∧ ∀ d, d < 4 → ((wMode .linkup).die d).ez64 = false) ∧
    ((({ wMode .linkup with dies := [(3, { ez64 := true })] } : State).die 3).ez64 = true ∧
      (wMode .linkup).otp.importDis = false) ∧
    (({ otp := { importDis := true } } : State).otp.importDis = true) ∧
    ((wLinkup [] []).mode.mode.trains = true ∧ ((wLinkup [] []).die 3).inReset = false ∧
      (((wLinkup [] []).die 3).channel 63).trainEnded = false ∧ (((wLinkup [] []).die 3).channel 63).retired = false ∧
      Wf.desk [⟨71, 3, 127, 0⟩] = true) ∧
    (let s := { wLinkup [] [] with profiles := [wProfile] }
     s.diesGood [wId] = true ∧ ((s.die 0).channel 0).trainEnded = false ∧
      (∀ i, i < 16 → ((s.die 3).flashDie (63 * 16 + i)).failed = false) ∧
      1 ≤ targetBin (leAt ((s.profileFor ((s.usedIds [wId]).headD noDie).id).getD []) 16 2) (s.usedIds [wId]) ∧
      ∀ k, k < 4 → [Trained.bin 1, .bin 1, .bin 1, .bin 1].getD k .failed = .bin 1) ∧
    ((wLinkup [] []).macPresent 124 = true ∧ ((wLinkup [] []).mac 124).link = false ∧ (wLinkup [] []).macLanes 124 ≠ [] ∧
      124 ∈ (wLinkup [] []).macLanes 124 ∧ ¬ 0 ∈ (wLinkup [] []).macLanes 124) := by decide

/-- What a clean mount finds, and one without an anchor. -/
def wFind (anchor : Bool) : MountFind :=
  { keyTable := true, anchor, mapPieceLost := false, otherPieceLost := false, imageReads := true, unreadable := [], ms := 0 }

/-- A package in MOUNT with one formatted die 3 and the others not yet mounted. -/
def wMount : State :=
  { mode := { mode := .mount }
    dies := [(0, { inReset := false }), (1, { inReset := false }), (2, { inReset := false }),
      (3, { inReset := false, epochs := [⟨1, 1, 0, 0, 0, 0, {}, 0, []⟩] })] }

theorem witness_MountSteps :
    ((wMount.die 0).cause = 0 ∧ (wMount.die 0).ready = false ∧ wMount.mode.mode = .mount ∧ wMount.mode.mounted = false ∧
      wMount.mayMount 3 = true ∧ (wMount.die 3).cause = 0 ∧ wMount.mountStop 3 (wFind true) = none) ∧
    wMount.mountStop 3 (wFind false) = some 5 ∧
    (({ mode := { mode := .mount, mounted := true } } : State).mode.mounted = true ∧
      ({ mode := { mode := .mount, mounted := true } } : State).selfMember = none) ∧
    (({ mode := { mode := .imports, mounted := true } } : State).mode.mode = .imports ∧
      ({ mode := { mode := .imports, mounted := true } } : State).selfMember = none) := by decide

theorem witness_FormatEnds : (wMode .format).mode.mode = .format ∧ (wMode .format).eng.treqs = [] ∧
    ((wMode .format).die 3).cause ≠ 1 ∧ ∀ f, f ∈ ((wMode .format).die 3).flash → f.2.marked = [] := by decide

/-! ### Ethernet -/

/-- Entry 0 of the filter table: address 02-00-00-00-00-01 with IPv4 10.0.0.1. -/
def wFilter : BitVec 256 := BitVec.ofNat 256 (0x020000000001 + 2 ^ 48 + 2 ^ 49 + 0x0A000001 * 2 ^ 64)

def wCfg : MacCfg := { filter := [(0, wFilter)] }

/-- MAC 124, up, with its filter and the rest as given. -/
def wMac (x : Mac) : State :=
  { wServe with net := { macs := [(124, { x with link := true, cfg := wCfg, live := wCfg })] } }

/-- A UDP datagram from 10.0.0.2 to 10.0.0.1, as a frame. -/
def wUdp (port : Nat) (o : Octets) : Octets :=
  withFcs (udpFrame 0x020000000001 0x020000000002 none 0 64 (.v4 0x0A000002#32) (.v4 0x0A000001#32) 4660 port o)

/-- An INIT of 56 octets: version 1, type 1, zeros else. -/
def wInit : Octets := 0x11#8 :: zeros 55

theorem fcsOk_withFcs (o : Octets) : fcsOk (withFcs o) = true := by simp [fcsOk, withFcs, leOctets]

theorem rxCheck_none {s : State} {m : Nat} {o : Octets} {h : EthHead} {ip : Option IpHead} (hc : fcsOk o = true)
    (hr : s.groupStopped (m / 4) = false ∧ filterPasses (s.mac m).live h ip = true ∧ 64 ≤ o.length ∧
      o.length ≤ maxFrm (s.mac m).live ∧
      s.ringTakes m (rxPrio (s.mac m).live h ip) (buffersOf (o.take (min o.length (maxFrm (s.mac m).live + 1)))) = true ∧
      h.tagOk = true ∧ ip.all (fun i => i.headOk && l4ChecksumOk i) = true) : s.rxCheck m o false h ip = none := by
  obtain ⟨h1, h2, h3, h4, h5, h6, h7⟩ := hr
  cases ip with
  | none => simp [State.rxCheck, h1, h2, Nat.not_lt.mpr h3, Nat.not_lt.mpr h4, h5, hc, h6]
  | some i =>
    have h8 : i.headOk = true ∧ l4ChecksumOk i = true := by simpa using h7
    simp [State.rxCheck, h1, h2, Nat.not_lt.mpr h3, Nat.not_lt.mpr h4, h5, hc, h6, h8.1, h8.2]

theorem witness_FrameReceive : (wMac {}).macPresent 124 = true ∧ ((wMac {}).mac 124).link = true ∧
    (wServe.macPresent 124 = true ∧ (wServe.mac 124).link = false) ∧ (wMac {}).groupStopped 31 = false ∧
    (let h := parseEth ((wUdp 7450 wInit).take ((wUdp 7450 wInit).length - 4))
     (wMac {}).rxCheck 124 (wUdp 7450 wInit) true h (parseIp h) = some 3 ∧
     (wMac {}).rxCheck 124 (wUdp 7450 wInit) false h (parseIp h) = none ∧ (wMac {}).rxClass 124 h (parseIp h) = .wot) ∧
    (let h := parseEth ((wUdp 319 []).take ((wUdp 319 []).length - 4))
     (wMac {}).rxCheck 124 (wUdp 319 []) false h (parseIp h) = none ∧ (wMac {}).rxClass 124 h (parseIp h) = .ptp) := by
  refine ⟨by decide, by decide, by decide, by decide, ⟨by decide +kernel, ?_, by decide +kernel⟩, ?_,
    by decide +kernel⟩
  all_goals exact rxCheck_none (fcsOk_withFcs _) (by decide +kernel)

/-- Frames in queues 0 and 7; queue 7 paused. -/
def wQueued (link : Bool) (paused : Tab Nat) : State :=
  { wServe with net := { macs := [(124, { link := link, queues := [(0, [{ octets := [1#8] }]), (7, [{ octets := [2#8] }])], paused := paused })] } }

theorem witness_FrameTransmit :
    (({ wMac {} with mode := { mode := .service, fns := [(32, { state := .stopped })] } } : State).groupStopped 31 = true) ∧
    (wMac { pauseDue := [⟨false, [], 0⟩] }).groupStopped (124 / 4) = false ∧
    ((wMac { pauseDue := [⟨false, [], 0⟩] }).mac 124).pauseDue = [⟨false, [], 0⟩] ∧
    (((wQueued true [(7, 5)]).mac 124).pauseDue = [] ∧ ((wQueued true [(7, 5)]).mac 124).queue 0 = [{ octets := [1#8] }] ∧
      tabGet (fun _ => 0) ((wQueued true [(7, 5)]).mac 124).paused 0 = 0 ∧
      ∀ q, q < 8 → 0 < q → ((wQueued true [(7, 5)]).mac 124).queue q = [] ∨
        tabGet (fun _ => 0) ((wQueued true [(7, 5)]).mac 124).paused q ≠ 0) ∧
    (((wQueued false []).mac 124).link = false ∧ ((wQueued false []).mac 124).queue 7 = [{ octets := [2#8] }]) := by decide

theorem witness_Pausing :
    (fcMode (State.reset.mac 124).live = 0) ∧
    (let s := wMac { xoff := [(7, true)] }
     let c : MacCfg := { wCfg with macCtrl := 2#32 }
     let t : State := { s with net := { macs := [(124, { link := true, live := c, xoff := [(7, true)] })] } }
     (t.mac 124).link = true ∧ fcMode (t.mac 124).live = 2 ∧ pfcEn (t.mac 124).live 7 = true ∧
       tabGet (fun _ => false) (t.mac 124).xoff 7 = true ∧ (t.mac 124).pauseDue = []) ∧
    (let live : MacCfg := { macCtrl := 2#32 }
     let t : State := { wServe with net := { macs := [(124, { link := true, live, xoff := [(7, true)], pauseDue := [⟨true, [(0, 5)], 0⟩] })] } }
     (t.mac 124).pauseDue = [] ++ [⟨true, [(0, 5)], 0⟩] ∧ t.clock.cycles = 0 ∧ (∀ e, e ∈ [((0 : Nat), 5)] → e.1 ≠ 7)) ∧
    (let t : State := { wServe with net := { macs := [(124, { link := true, live := { macCtrl := 1#32 }, pauseSent := true })] } }
     (t.mac 124).link = true ∧ fcMode (t.mac 124).live = 1 ∧ (t.mac 124).pauseSent = true) ∧
    (wServe.mac 124).link = false := by decide

theorem witness_LinkAndLaneEvents :
    (let s := wLinkup [] [(124, { lock := true }), (125, { lock := true }), (126, { lock := true }), (127, { lock := true })]
     s.macPresent 124 = true ∧ (s.mac 124).link = false ∧ s.mode.mode.trains = true ∧ s.macLanes 124 ≠ [] ∧
       ∀ l, l ∈ s.macLanes 124 → (s.lane l).lock = true) ∧
    ((wServe.mac 127).link = false ∧ ((wMac {}).mac 124).link = true) ∧
    (let s := wLinkup [] [(127, { inService := true, retrains := 3 })]
     (s.lane 127).inService = true ∧ 127 ∈ s.macLanes (s.macOfLane 127)) ∧
    (let s := wLinkup [] [(124, { mapped := true }), (125, { inService := true })]
     (s.lane 125).inService = true ∧ 125 ∉ s.macLanes (s.macOfLane 125)) := by decide

theorem witness_RingTake : State.reset.nextRing = none ∧
    (let f : RxFrame := { octets := wUdp 319 [], time := 0 }
     let s := wMac { rings := [(7, [f])] }
     let h := parseEth (f.octets.take (f.octets.length - 4))
     s.nextRing = some (124, 7) ∧ (s.mac 124).ring 7 = [f] ∧ s.rxClass 124 h (parseIp h) = .ptp ∧ s.net.ptpQueue.length < 64) ∧
    (64 ≤ (List.replicate 64 (0, ({ octets := [], time := 0 } : RxFrame))).length) ∧
    (let f : RxFrame := { octets := wUdp 7450 wInit, time := 0 }
     let s := wMac { rings := [(0, [f])] }
     let h := parseEth (f.octets.take (f.octets.length - 4))
     s.nextRing = some (124, 0) ∧ s.rxClass 124 h (parseIp h) = .wot ∧
       (parseIp h).any (fun i => !wotHeadBad (i.l4.drop 8) && decide (beAt (i.l4.drop 8) 0 1 % 16 = 1)) = true) ∧
    (let f : RxFrame := { octets := wUdp 9 [], time := 0 }
     let h := parseEth (f.octets.take (f.octets.length - 4))
     (wMac {}).rxClass 124 h (parseIp h) = .other) := by
  exact ⟨by decide +kernel, by decide +kernel, by decide, ⟨by decide +kernel, by decide +kernel, by decide +kernel⟩,
    by decide +kernel⟩

/-! ### WOT -/

/-- A path through MAC 127. -/
def wPath : Path := ⟨127, .v4 0x0A000001#32, 7450, .v4 0x0A000002#32, 4660, 2#48, none, 7, 0⟩

/-- An open connection of the client class. -/
def wConn : Conn := { state := .open, cred := 4095, path := some wPath, limit := 65536 }

/-- A package in `m` with connection 65,535 as `k` and the WOT terminator's queue `term`. -/
def wWot (m : Mode) (k : Conn) (term : List TermItem) : State :=
  { mode := { mode := m }, wot := { conns := [(65535, k)], term := term, resumed := true } }

theorem witness_WotPlainItems :
    (Front (wWot .service wConn [.item 65535 0 .pad]) 65535 .pad [] ∧
      Front (wWot .service wConn [.item 65535 0 .ping, .item 65535 0 .pad]) 65535 .ping [.item 65535 0 .pad] ∧
      Front (wWot .service wConn [.item 65535 0 (.window (2 ^ 64 - 1))]) 65535 (.window (2 ^ 64 - 1)) [] ∧
      Front (wWot .service { wConn with state := .closing } [.item 65535 0 (.reset 255 0)]) 65535 (.reset 255 0) [] ∧ wConn.resend = []) ∧
    (1 ≠ ((wWot .service { wConn with gen := 2 } [.item 65535 1 (.window 9)]).conn 65535).gen ∧
      (wWot .service { wConn with gen := 2 } [.item 65535 1 (.window 9)]).wot.term = .item 65535 1 (.window 9) :: []) :=
  ⟨⟨⟨rfl, by decide⟩, ⟨rfl, by decide⟩, ⟨rfl, by decide⟩, ⟨rfl, by decide⟩, rfl⟩, by decide, rfl⟩

/-- A GET of 8 octets with tag 1023: its head only. -/
def wReq : Octets := [0#8, 0#8, 0#8, 8#8, 3#8, 0xFF#8, 1#8, 0#8]

theorem witness_WotRequest :
    (Front (wWot .service wConn [.item 65535 0 (.req 65536 [1#8])]) 65535 (.req 65536 [1#8]) [] ∧ wConn.final = none ∧
      wConn.limit < 65536 + [1#8].length) ∧
    (0 + wReq.length ≤ wConn.limit ∧ wConn.state = .open ∧ wConn.mgmt = false ∧
      (wConn.place 0 (wReq.take 7)).msgAt wConn.consumed = .short) ∧
    ((wConn.place 0 wReq).msgAt wConn.consumed = .whole wReq ∧ beAt wReq 4 2 < 1024 ∧ wConn.tags.contains (beAt wReq 4 2) = false ∧
      (wWot .service wConn []).wot.gate = [] ∧ (wWot .service wConn []).wot.aborts = []) :=
  ⟨⟨⟨rfl, by decide⟩, by decide⟩, by decide, by decide⟩

/-- A connection with frames 4 and 5 unacknowledged and a response outstanding. -/
def wSent : Conn := { wConn with unacked := [{ pn := 4, items := [.ping], time := 0 }, { pn := 5, items := [.ping], time := 0 }],
                                 tags := [7], high := 10, pnTx := 6 }

theorem witness_WotAckAndClose :
    (Front (wWot .service wSent [.item 65535 0 (.ack 0 5 0)]) 65535 (.ack 0 5 0) [] ∧
      (∀ f, f ∈ wSent.unacked → ackCovers 5 0 f.pn = true → f.items.any Item.isClose = false) ∧
      (∀ f, f ∈ wSent.unacked → ackCovers 5 0 f.pn = false → ackAbove 5 0 wSent.pnTx (f.pn + 3) = false) ∧ wSent.resend = []) ∧
    (Front (wWot .service wSent [.item 65535 0 (.close 9)]) 65535 (.close 9) [] ∧ wSent.final = none ∧ 9 < wSent.high) ∧
    (Front (wWot .service wSent [.item 65535 0 (.close 10)]) 65535 (.close 10) [] ∧ wSent.high ≤ 10 ∧ wSent.tags ≠ [] ∧
      wSent.msgAt wSent.consumed = .short) :=
  ⟨⟨⟨rfl, by decide⟩, by decide +kernel, by decide +kernel, rfl⟩, ⟨⟨rfl, by decide⟩, by decide⟩, ⟨rfl, by decide⟩, by decide⟩

/-- An INIT of credential 4,095 up to its MAC: MAXFRAME 9,000, NC zeros, WINDOW 65,536. -/
def wInitHead : Octets := [0x11#8] ++ zeros 11 ++ beOctets 2 4095 ++ beOctets 2 9000 ++ zeros 16 ++ beOctets 8 65536

/-- That INIT with the MAC that the PSK `psk` gives it. -/
def wInitFull (psk : BitVec 256) : Octets := wInitHead ++ (hmac256 (handshakeKey psk) wInitHead).take 16

/-- A package in `m` with client credential 4,095 valid, and an INIT that verifies at the terminator. -/
def wCred (m : Mode) : State :=
  { mode := { mode := m }, tables := { creds := [(4095, { valid := true, psk := 1 })] },
    wot := { term := [.init wPath (wInitFull 1)] } }

theorem wInitFull_take (psk : BitVec 256) : (wInitFull psk).take 40 = wInitHead := List.take_left' rfl

theorem wInitFull_drop (psk : BitVec 256) :
    (wInitFull psk).drop 40 = (hmac256 (handshakeKey psk) wInitHead).take 16 := List.drop_left' rfl

theorem wInitFull_fields : initOk (wInitFull 1) = true ∧ beAt (wInitFull 1) 12 2 = 4095 := by decide +kernel

theorem witness_WotInit :
    ((wCred .service).wot.term = .init wPath (wInitFull 1) :: [] ∧ initOk (wInitFull 1) = true ∧
      beAt (wInitFull 1) 12 2 = 4095 ∧ ((wCred .service).cred 4095).valid = true ∧ ((wCred .service).cred 4095).mgmt = false ∧
      (hmac256 (handshakeKey ((wCred .service).cred 4095).psk) ((wInitFull 1).take 40)).take 16 = (wInitFull 1).drop 40 ∧
      (∀ e, e ∈ (wCred .service).wot.conns → e.2.cred = 4095 → e.2.nc ≠ slice (wInitFull 1) 16 16)) ∧
    ((wCred .service).mode.mode.clientOpen = 2 ∧ 512 ≤ (wCred .service).poolFree ∧ (wCred .service).freeConn = some 0) ∧
    (wCred .mount).mode.mode.clientOpen ≠ 2 ∧
    (initOk [] = false ∧ (State.reset.cred 1).valid = false) :=
  ⟨⟨rfl, wInitFull_fields.1, wInitFull_fields.2, by decide, by decide,
    (congrArg (fun o => (hmac256 (handshakeKey 1) o).take 16) (wInitFull_take 1)).trans (wInitFull_drop 1).symm,
    fun _ h => nomatch h⟩, by decide +kernel, by decide, by decide⟩

theorem witness_WotTimers :
    (let k := { wConn with ackOwed := 1 }
     k.live = true ∧ k.ackOwed ≠ 0 ∧ k.pnTx + 1 < 2 ^ 48 ∧ k.path = some wPath) ∧
    (wSent.live = true ∧ wSent.unacked ≠ [] ∧ wSent.backoff < 9 ∧ wSent.pnTx + wSent.unacked.length + wSent.resend.length + 2 < 2 ^ 48) ∧
    (let k := { wSent with backoff := 9 }
     k.live = true ∧ k.unacked ≠ [] ∧ 9 ≤ k.backoff) ∧
    ((wWot .service { wConn with state := .opening } []).conn 65535).state = .opening ∧
    ((wWot .service { wConn with state := .quiet } []).conn 65535).state = .quiet ∧
    ((wWot .service { wConn with state := .quiet } []).conn 65535).live = false := by decide

/-- A response of one octet, with tag 65,535. -/
def wRsp : Rsp := { tag := 65535, commit := 3, segs := [.octets [1#8]] }

theorem witness_WotLimitsAndResponses : State.reset.dueRaise = none ∧
    ((wWot .service wConn []).dueRaise = none ∧ (wWot .service { wConn with high := 65536 } []).dueRaise = some 65535 ∧
      4096 ≤ (wWot .service { wConn with high := 65536 } []).poolFree ∧ wConn.live = true ∧ wConn.pnTx + 1 < 2 ^ 48) ∧
    (let k := { wConn with state := .opening, limit := 512, high := 512 }
     (wWot .service k []).dueRaise = some 65535 ∧ 4096 ≤ (wWot .service k []).poolFree ∧ k.state = .opening) ∧
    ((wWot .service { wConn with limit := 50331648, high := 50331648 } []).dueRaise = some 65535 ∧
      (wWot .service { wConn with limit := 50331648, high := 50331648 } []).poolFree < 4096) ∧
    (let k := { wConn with rsps := [wRsp], tags := [65535], rspWin := 65536 }
     k.state = .open ∧ k.rsps = [wRsp] ∧ wRsp.segs = [.octets [1#8]] ∧ wRsp.sent = 0 ∧ wRsp.rsn = none ∧ wRsp.after = none ∧
       wRsp.counted = true ∧ [1#8].length + 46 ≤ k.maxFrame ∧ [1#8].length + k.inFlight ≤ k.rspWin ∧
       [1#8].length + k.inFlight ≤ k.cwnd ∧ k.path = some wPath ∧
       (wWot .service k []).txRoom 127 7 (k.maxFrame + 100) = true ∧ k.pnTx + 1 < 2 ^ 48 ∧
       (wWot .service k []).cmd? wRsp.commit = none) := by decide +kernel

/-- A package in SERVICE with the message `m` at the gate. -/
def wGate (k : Conn) (m : GateMsg) : State :=
  { wWot .service k [] with wot := { (wWot .service k []).wot with gate := [m] } }

theorem witness_GateLeaves : (∀ m, m ∈ State.reset.wot.gate → State.reset.gateOpen m = false) ∧
    (let m : GateMsg := { conn := 65535, gen := 0, mgmt := true, pos := 0, msg := wReq }
     let s := wGate { wConn with mgmt := true } m
     s.wot.gate = [m] ∧ s.gateOpen m = true ∧ s.wot.aborts = [] ∧ s.wot.resumed = true ∧ s.wot.outstanding < 1048576 ∧
       ((s.conn 65535).consume (m.pos + m.msg.length)).msgAt (m.pos + m.msg.length) = .short ∧ (s.conn 65535).final = none) ∧
    (let m : GateMsg := { conn := 65535, gen := 0, mgmt := false, pos := 0, msg := wReq }
     (wGate wConn m).gateOpen m = true ∧ (wGate wConn m).reqHolds = false) := by decide +kernel

/-- An ABORT with tag 6 of the command with tag `p0`, P0 in octets 12 to 19. -/
def wAbort (p0 : Nat) : Octets := beOctets 4 40 ++ beOctets 2 6 ++ zeros 6 ++ beOctets 8 p0 ++ zeros 20

theorem witness_AbortOutcomes :
    (({ wConn with segs := [(0, wAbort 6)] }).msgAt 0 = .whole (wAbort 6) ∧ msgP0 (wAbort 6) % 65536 = beAt (wAbort 6) 4 2) ∧
    (let a : AbortRec := { conn := 65535, gen := 0, pos := 0, outcome := 3, target := 0 }
     let k := { wConn with segs := [(0, wAbort 7)], tags := [7] }
     let q : Cmd := { commit := 5, conn := 65535, gen := 0, tag := 7, msg := wReq, keyHash := 0, stemHash := 0, hasStem := false,
                      entry := {}, image := none, region := 0, engine := 0, phase := .queued, data := none, granted := 0,
                      origin := none, rsp := [], holdAlloc := false, holdErase := [], fenced := false }
     let s : State := { mode := { mode := .service }, wot := { conns := [(65535, k)], aborts := [a] }, eng := { cmds := [q] } }
     s.wot.aborts = [a] ∧ (s.conn a.conn).msgAt a.pos = .whole (wAbort 7) ∧ msgP0 (wAbort 7) % 65536 ≠ beAt (wAbort 7) 4 2 ∧
       (s.conn a.conn).tags.contains (msgP0 (wAbort 7) % 65536) = true ∧ s.eng.cmds = [q] ∧ q.conn = a.conn ∧ q.gen = a.gen ∧
       q.tag = msgP0 (wAbort 7) % 65536 ∧ q.origin = none) ∧
    (let k := { wConn with segs := [(0, wAbort 65535)] }
     k.msgAt 0 = .whole (wAbort 65535) ∧ msgP0 (wAbort 65535) % 65536 ≠ beAt (wAbort 65535) 4 2 ∧
       k.tags.contains (msgP0 (wAbort 65535) % 65536) = false ∧ k.uncommitted = []) := by decide

/-! ### Default images -/

/-- A command message: opcode, FLAGS, P0, P1, P3, key and DATA, tag 7, namespace 5. -/
def wMsg (op flags p0 p1 p3 : Nat) (key data : Octets) : Octets :=
  beOctets 4 (40 + key.length + data.length) ++ beOctets 2 7 ++ beOctets 1 op ++ beOctets 1 flags ++ beOctets 2 5 ++
  beOctets 1 key.length ++ beOctets 1 0 ++ beOctets 8 p0 ++ beOctets 8 p1 ++ beOctets 8 0 ++ beOctets 4 p3 ++ key ++ data

/-- Command 9 of engine 511 and region 15 with that message, its class and image. -/
def wCmd (cls : Nat) (image : Image) (msg : Octets) : Cmd :=
  { commit := 9, conn := 65535, gen := 0, tag := 7, msg := msg, keyHash := 0, stemHash := 0, hasStem := false,
    entry := { valid := true, cls := cls, budget := 256, len := 1 }, image := some image, region := 15, engine := 511,
    phase := .queued, data := none, granted := 0, origin := none, rsp := [], holdAlloc := false, holdErase := [], fenced := false }

/-- The default image's command. -/
def wFac (op cls flags p0 p1 p3 : Nat) (key data : Octets) : Cmd := wCmd cls (.factory op) (wMsg op flags p0 p1 p3 key data)

/-- A package in SERVICE with the commands `cmds` and store die 3 as given. -/
def wRun (cmds : List Cmd) (d : Die) : State :=
  { mode := { mode := .service, mounted := true }, dies := [(3, d)], wot := { conns := [(65535, wConn)], resumed := true },
    eng := { cmds := cmds } }

/-- A read that succeeded with `a`. -/
def okIs {A : Type} [DecidableEq A] (r : Except Nat A) (a : A) : Bool :=
  match r with
  | .ok b => decide (b = a)
  | .error _ => false

theorem okIs_eq {A : Type} [DecidableEq A] {r : Except Nat A} {a : A} (h : okIs r a = true) : r = .ok a := by
  cases r with
  | ok b => exact congrArg Except.ok (of_decide_eq_true h)
  | error _ => exact nomatch h

theorem startable_of {s : State} {c : Cmd} {op k : Nat} (h : (c.commit < 2 ^ 64 ∧ k < 8 ∧ s.cmd? c.commit = some c ∧
    c.image = some (.factory op) ∧ s.nextFor c.engine = some c ∧ s.inv (.eng c.engine k) = none) ∧
    (enginePlace c.engine ∉ s.masked ∧ s.mode.mode.serving = true ∧ c.origin = none ∧ (s.conn c.conn).gen = c.gen ∧
    (s.conn c.conn).state = .open) ∧ c.hasStem = false ∧ s.fab.waits = []) : Startable s c op k := by
  obtain ⟨⟨a1, a2, a3, a4, a5, a6⟩, ⟨b1, b2, b3, b4, b5⟩, c1, c2⟩ := h
  exact { commit := a1, ctx := a2, found := a3, image := a4, next := a5, free := a6, engine := b1, serves := b2, own := b3,
          gen := b4, open_ := b5, alone := fun h => absurd (c1.symm.trans h) (by decide),
          waits := fun w hw => by rw [c2] at hw; exact nomatch hw }

theorem paused_of {s : State} {c : Cmd} {op k : Nat} {v : Inv} {w : Why} (h : (Wf.ctxId (.eng c.engine k) = true ∧
    s.cmd? c.commit = some c ∧ s.inv (.eng c.engine k) = some v ∧ v.wait = .factory w ∧ v.image = .factory op) ∧
    (v.commit = c.commit ∧ c.origin = none ∧ (s.conn c.conn).gen = c.gen ∧ (s.conn c.conn).state = .open) ∧
    c.hasStem = false ∧ s.fab.waits = []) : Paused s c op k v w := by
  obtain ⟨⟨a1, a2, a3, a4, a5⟩, ⟨b1, b2, b3, b4⟩, c1, c2⟩ := h
  exact { place := a1, found := a2, inv := a3, wait := a4, image := a5, commit := b1, own := b2, gen := b3, open_ := b4,
          alone := fun h => absurd (c1.symm.trans h) (by decide),
          waits := fun w hw => by rw [c2] at hw; exact nomatch hw }

/-- Key 0xAA of namespace 5: a live object of no octets in slot 0 of store die 3. -/
def wEntry : DirEntry := { state := 1, nsid := 5, version := 4, handle := handleOf 0 3 0, key := [0xAA#8] }

/-- Store die 3 in service with that object, one row of room in region 3. -/
def wObj : Die := { wDie with dir := [(0, wEntry)], ledger := { lcap := [(3, 1)] } }

/-- The same with no object. -/
def wNone : Die := { wDie with ledger := { lcap := [(3, 1)] } }

/-- A row of `wEntry` as Table 8-1 lays it out: REQMASK, stem 0, priority 9, valid; its check field 0. -/
def wRow (req : Nat) : BitVec 186 := BitVec.ofNat 186 (req + 9 * 2 ^ 128 + 0x0C000000 * 2 ^ 144 + 2 ^ 176)

theorem witness_DefaultReads :
    (let c := wFac 0x01 0 0 0 0 0 [0xAA#8] []
     (Startable (wRun [c] wNone) c 0x01 7 ∧ c.keyed (c.badForm true) = none ∧ okIs ((wRun [c] wNone).find c) none = true ∧
       (wRun [c] wNone).findCost c ≤ c.entry.budget) ∧
     (let c := { c with entry := { c.entry with budget := 0 } }
      Startable (wRun [c] wNone) c 0x01 7 ∧ c.keyed (c.badForm true) = none ∧ c.entry.budget < (wRun [c] wNone).findCost c) ∧
     (Startable (wRun [c] wObj) c 0x01 7 ∧ okIs ((wRun [c] wObj).find c) (some wEntry) = true ∧ wEntry.live = true ∧
       c.p0 ≤ wEntry.length ∧ (wRun [c] wObj).findCost c ≤ c.entry.budget)) ∧
    (let c := wFac 0x02 2 0 0 0 0 [0xAA#8] []
     Startable (wRun [c] wObj) c 0x02 0 ∧ c.keyed (c.badForm true) = none) ∧
    (let c := { wFac 0x02 2 0 0 0 0 [0xAA#8] [] with phase := .running (.eng 511 0) }
     let v : Inv := { work := .command 9, image := .factory 0x02, len := 1, cls := 2, dsag := false, budget := 256, commit := 9,
                      wait := .factory .search }
     let s : State := { wRun [c] wObj with lease := { state := .held }, sel := { rows := [(3, wRow 0)], copies := [(3, wRow 0)] },
                                           eng := { cmds := [c], ctxs := [(511 * 8, some v)] } }
     Paused s c 0x02 0 v .search ∧ c.keyed (c.badForm true) = none ∧ s.searchReady = true ∧ s.sel.damaged = [] ∧
       okIs (s.confirmed c (c.p3 % 65536 + 2) (s.sel.matching c.stemHash (w64 c.p0))) [(9, wEntry)] = true ∧
       matchCost * s.examined c (c.p3 % 65536 + 2) (s.sel.matching c.stemHash (w64 c.p0)) ≤ c.entry.budget ∧
       [(9, wEntry)][c.p3 % 65536]? = some (9, wEntry) ∧ c.p1 ≤ wEntry.length) ∧
    (let c := wFac 0x10 4 0 4096 0 0 [0xAA#8] []
     let s := wRun [c] wObj
     Startable s c 0x10 0 ∧ c.badForm false = false ∧ c.dataLen ≤ 255 ∧ 0 < c.p0 % 8192 ∧ c.p0 % 8192 ≤ 4096 ∧ c.nsBad = false ∧
       s.succReady c.commit c.nsid = true ∧
       64 + (((s.liveKeys c.nsid (fun x => startsWith c.key x && decide (octetsCmp (msgData c.msg) x < 0))).take
         (min (c.p0 % 8192) 2048)).flatMap scanEntry).length ≤ 4096) ∧
    (let c := wFac 0x14 5 0 0 0 0 [] []
     Startable (wRun [c] wNone) c 0x14 0 ∧ c.badForm true = false ∧ c.noKeyData = true ∧ c.p0 % 256 = 0 ∧ c.nsBad = false) :=
  ⟨⟨⟨startable_of (by decide +kernel), by decide +kernel⟩, ⟨startable_of (by decide +kernel), by decide +kernel⟩,
      startable_of (by decide +kernel), by decide +kernel⟩,
    ⟨startable_of (by decide +kernel), by decide +kernel⟩, ⟨paused_of (by decide +kernel), by decide +kernel⟩,
    ⟨startable_of (by decide +kernel), by decide +kernel⟩, startable_of (by decide +kernel), by decide +kernel⟩

theorem witness_DefaultFences :
    (let c := wFac 0x11 5 0 0 0 0 [] []
     (Startable (wRun [c] wNone) c 0x11 0 ∧ c.badForm true = false ∧ c.noKeyData = true ∧ c.nsBad = false ∧
       (wRun [c] wNone).unflushed c.commit (fun n => c.flag0 || decide (n = c.nsid)) = false) ∧
     (let s := wRun [c] { wNone with log := [{ commit := 8, nsid := 5, floor := 0, items := [] }] }
      Startable s c 0x11 0 ∧ s.unflushed c.commit (fun n => c.flag0 || decide (n = c.nsid)) = true)) ∧
    (let c := wFac 0x12 5 0 0 0 0 [] []
     Startable (wRun [c] wNone) c 0x12 0 ∧ c.badForm true = false ∧ c.noKeyData = true ∧
       (wRun [c] wNone).fenceMet c c.flag0 = true) ∧
    (let c := wFac 0x13 5 0 0 0 0 [] []
     Startable (wRun [c] wNone) c 0x13 0 ∧ c.badForm true = false ∧ c.noKeyData = true) :=
  ⟨⟨⟨startable_of (by decide +kernel), by decide +kernel⟩, startable_of (by decide +kernel), by decide +kernel⟩,
    ⟨startable_of (by decide +kernel), by decide +kernel⟩, startable_of (by decide +kernel), by decide +kernel⟩

theorem witness_DefaultWrites :
    (let c := { wFac 0x03 1 0 0 0 0 [0xAA#8] [] with data := some ⟨3, 262144, true, true⟩ }
     (Startable (wRun [c] wNone) c 0x03 0 ∧ c.keyed (c.badForm false) = none ∧ c.dataLen ≤ 262144 ∧ c.placedOk = true ∧
       okIs ((wRun [c] wNone).find c) none = true ∧ c.flag0 = false ∧ ((wRun [c] wNone).die c.die).ledger.appliedBelow c.commit = true ∧
       (wRun [c] wNone).hasRoom c.die (c.region % 4) ((wRun [c] wNone).die c.die) false false c.dataLen = true ∧
       ((wRun [c] wNone).die c.die).logFull = false ∧ (wRun [c] wNone).findCost c ≤ c.entry.budget ∧
       (wRun [c] wNone).putCut c = none ∧ (wRun [c] wNone).putCutAfter c ([45, 46] ++ span 47 56) = none) ∧
     (let c := { c with entry := { c.entry with budget := 0 } }
      Startable (wRun [c] wNone) c 0x03 0 ∧ c.keyed (c.badForm false) = none ∧ c.placedOk = true ∧
       ((wRun [c] wNone).putCut c).isSome = true) ∧
     (Startable (wRun [c] wObj) c 0x03 0 ∧ okIs ((wRun [c] wObj).find c) (some wEntry) = true ∧
       ((wRun [c] wObj).die c.die).byHandle wEntry.handle = some wEntry ∧ ((wRun [c] wObj).die c.die).logFull = false ∧
       (wRun [c] wObj).findCost c ≤ c.entry.budget ∧ (wRun [c] wObj).putCut c = none ∧
       (wRun [c] wObj).putCutAfter c (40 :: span 47 56) = none)) ∧
    (let c := { wFac 0x03 1 1 3 0 0 [0xAA#8] [] with data := some ⟨3, 262144, true, true⟩ }
     Startable (wRun [c] wObj) c 0x03 0 ∧ okIs ((wRun [c] wObj).find c) (some wEntry) = true ∧ c.flag0 = true ∧
       c.p0 ≠ versionOf (some wEntry) ∧ (wRun [c] wObj).findCost c ≤ c.entry.budget ∧ (wRun [c] wObj).putCut c = none) ∧
    (let c := wFac 0x04 1 1 4 0 0 [0xAA#8] []
     Startable (wRun [c] wObj) c 0x04 0 ∧ c.keyed (c.badForm true) = none ∧ okIs ((wRun [c] wObj).find c) (some wEntry) = true ∧
       wEntry.live = true ∧ ((wRun [c] wObj).die c.die).byHandle wEntry.handle = some wEntry ∧ c.p0 = wEntry.version ∧
       ((wRun [c] wObj).die c.die).logFull = false ∧ (wRun [c] wObj).findCost c ≤ c.entry.budget) ∧
    (let c := wFac 0x04 1 0 0 0 0 [0xAA#8] []
     Startable (wRun [c] wNone) c 0x04 0 ∧ (wRun [c] wNone).findCost c ≤ c.entry.budget ∧ okIs ((wRun [c] wNone).find c) none = true ∧ c.flag0 = false) ∧
    (let c := wFac 0x05 1 0 0 0 0 [0xAA#8] []
     let s := wRun [c] wNone
     Startable s c 0x05 0 ∧ c.keyed (c.badForm true) = none ∧ okIs (s.find c) none = true ∧ c.flag0 = false ∧
       s.findCost c ≤ c.entry.budget ∧
       (let u := s.modDie c.die (fun d => d.markPurge s.geo (c.region % 4) c.commit c.keyHash)
        (u.die c.die).purging c.commit = false ∧ okIs (u.find c) none = true ∧ u.findCost c ≤ c.entry.budget)) :=
  ⟨⟨⟨startable_of (by decide +kernel), by decide +kernel⟩, ⟨startable_of (by decide +kernel), by decide +kernel⟩,
      startable_of (by decide +kernel), by decide +kernel⟩,
    ⟨startable_of (by decide +kernel), by decide +kernel⟩, ⟨startable_of (by decide +kernel), by decide +kernel⟩,
    ⟨startable_of (by decide +kernel), by decide +kernel⟩, startable_of (by decide +kernel), by decide +kernel⟩

/-- Pending put 6 of that key: one octet, its chunk `held`. -/
def wPut (held : List Nat) : Pending :=
  { putid := 6, keyHash := 0, length := 1, nsid := 5, usermeta := 0, key := [0xAA#8], serial := 0, first := 0, held := held }

/-- A row of `wEntry` with REQMASK 1 and stem 0. -/
def wSel : Sel := { rows := [(3, wRow 1)], copies := [(3, wRow 1)] }

theorem witness_DefaultPuts :
    (let c := wFac 0x08 1 0 65536 0 0 [0xAA#8] []
     let s := wRun [c] wNone
     Startable s c 0x08 0 ∧ c.keyed (c.badForm true) = none ∧ c.p0 ≤ 2 ^ 40 ∧ okIs (s.find c) none = true ∧
       s.findCost c ≤ c.entry.budget ∧ (s.die c.die).serialSwept = true ∧
       (s.die c.die).ledger.appliedBelow c.commit = true ∧ s.hasRoom c.die (c.region % 4) (s.die c.die) true true c.p0 = true ∧
       (s.die c.die).logFull = false) ∧
    (let c := wFac 0x0B 1 0 6 0 0 [0xAA#8] []
     let s := wRun [c] { wNone with puts := [(6, some (wPut []))] }
     Startable s c 0x0B 0 ∧ c.keyed (c.badForm true) = none ∧ s.putNamed c = some (wPut []) ∧ (wPut []).putid = c.p0 ∧
       (s.die c.die).logFull = false) ∧
    (let c := wFac 0x0A 1 0 6 0 0 [0xAA#8] []
     let s := wRun [c] { wObj with puts := [(6, some (wPut [0]))] }
     Startable s c 0x0A 0 ∧ c.keyed (c.badForm true) = none ∧ s.putNamed c = some (wPut [0]) ∧ (wPut [0]).putid = c.p0 ∧
       okIs (s.find c) (some wEntry) = true ∧ (s.die c.die).byHandle wEntry.handle = some wEntry ∧ c.flag0 = false ∧
       s.findCost c ≤ c.entry.budget ∧ (wPut [0]).missing = none ∧ (s.die c.die).logFull = false) ∧
    (let c := { wFac 0x09 1 0 6 0 0 [0xAA#8] [1#8] with data := some ⟨3, 262144, true, true⟩ }
     let s := wRun [c] { wNone with puts := [(6, some (wPut []))] }
     Startable s c 0x09 0 ∧ s.putNamed c = some (wPut []) ∧ (wPut []).putid = c.p0 ∧
       c.keyed (c.badForm false || decide (c.p1 % 65536 ≠ 0) || decide (c.dataLen = 0)) = none ∧ c.dataLen ≤ 262144 ∧
       partRange (wPut []) c.p1 c.dataLen = false ∧ c.placedOk = true ∧ (s.die c.die).logFull = false) :=
  ⟨⟨startable_of (by decide +kernel), by decide +kernel⟩, ⟨startable_of (by decide +kernel), by decide +kernel⟩,
    ⟨startable_of (by decide +kernel), by decide +kernel⟩, startable_of (by decide +kernel), by decide +kernel⟩

theorem witness_DefaultSelection :
    (let c := wFac 0x18 3 0 1 0 0 [0xAA#8] []
     (let s : State := { wRun [c] wObj with sel := wSel }
      Startable s c 0x18 0 ∧ c.keyed (c.badForm true) = none ∧ okIs (s.find c) (some wEntry) = true ∧ wEntry.live = true ∧
        s.findCost c ≤ c.entry.budget ∧
        s.sel.same (w64 c.p0) c.stemHash wEntry.handle = some 3 ∧ (s.die c.die).logFull = false) ∧
     (let s : State := { wRun [c] { wObj with grant := 5 } with lease := { state := .held, epoch := 5 } }
      s.findCost c ≤ c.entry.budget ∧ s.allocRuns = true ∧ Startable s c 0x18 0 ∧ okIs (s.find c) (some wEntry) = true ∧ s.sel.same (w64 c.p0) c.stemHash wEntry.handle = none ∧
        s.sel.appliedBelow c.commit = true ∧ s.sel.place c.stemHash = some 0 ∧
        (s.die c.die).logFull = false)) ∧
    (let c := wFac 0x19 3 1 0 0 0 [0xAA#8] []
     let s : State := { wRun [c] wObj with sel := wSel }
     Startable s c 0x19 0 ∧ c.keyed (c.badForm true) = none ∧ okIs (s.find c) (some wEntry) = true ∧ c.flag0 = true ∧
       s.sel.ofHandle c.stemHash wEntry.handle ≠ [] ∧ (s.die c.die).logFull = false ∧ s.findCost c ≤ c.entry.budget) :=
  ⟨⟨⟨startable_of (by decide +kernel), by decide +kernel⟩, by decide +kernel, by decide +kernel, startable_of (by decide +kernel),
      by decide +kernel⟩,
    startable_of (by decide +kernel), by decide +kernel⟩

theorem witness_CommandAdmission :
    (let c := { wFac 0x03 1 0 0 0 0 [0xAA#8] [] with phase := .waitGrant }
     (wRun [c] wNone).eng.cmds.filter (fun q => decide (q.die = 3) && decide (q.phase = .waitGrant)) = [c] ∧
       (wRun [c] wNone).dataAreaUsed 3 + (c.msg.length - 512) ≤ 268435456) ∧
    (let p : Placed := ⟨3, 0, false, false⟩
     let c := { wFac 0x03 1 0 0 0 0 [0xAA#8] [1#8] with data := some p }
     let s := wRun [c] { wNone with regions := [(3, { reserve := true })] }
     (s.die p.die).reserveWhole s.geo (c.region % 4) = true ∧ c.commit < 2 ^ 64 ∧
     s.cmd? c.commit = some c ∧ c.data = some p ∧ p.home = false ∧ c.phase = .queued ∧ (s.die p.die).online = true ∧
       (s.die p.die).stackLost = false ∧ (s.die ((p.die + 1) % 4)).stackLost = false ∧
       (s.die p.die).extentRef (extentUnits (slice (msgData c.msg) 0 c.dataLen).length) = some 262144) ∧
    (let c := { wFac 0x01 0 0 0 0 0 [0xAA#8] [] with entry := {} }
     let s := wRun [c] wNone
     s.cmd? c.commit = some c ∧ c.phase = .queued ∧ c.entry.valid = false ∧ s.mayStart c = true ∧ c.origin = none ∧
       (s.conn c.conn).gen = c.gen ∧ (s.conn c.conn).state = .open ∧ s.fab.waits = []) ∧
    (let c := wCmd 0 (.words [0#32]) (wMsg 0xFF 0 0 0 0 [0xAA#8] [])
     let s := wRun [c] wNone
     s.cmd? c.commit = some c ∧ c.image = some (.words [0#32]) ∧ s.nextFor c.engine = some c ∧ s.inv (.eng c.engine 7) = none ∧
       enginePlace c.engine ∉ s.masked ∧ s.mode.mode.serving = true) := by decide +kernel

/-! ### Nirm -/

/-- One word of every instruction, written out from Table 6-6 and the formats of Table 6-3: opcode, rd, ra, rb, func. -/
def wWordsA : List (W32 × Op) :=
  [(0x10123000#32, .alu 0), (0x10123001#32, .alu 1), (0x10123002#32, .alu 2), (0x10123003#32, .alu 3), (0x10123004#32, .alu 4),
   (0x10123005#32, .alu 5), (0x10123006#32, .alu 6), (0x10123007#32, .alu 7), (0x10123008#32, .alu 8), (0x10123009#32, .alu 9),
   (0x1012300A#32, .alu 10), (0x11120FC0#32, .ext), (0x1212003F#32, .dep), (0x1812FFFF#32, .addi), (0x1912FFFF#32, .andi),
   (0x1A12FFFF#32, .ori), (0x1B12FFFF#32, .xori), (0x1C12003F#32, .shli), (0x1D12003F#32, .shri), (0x1E12003F#32, .sari),
   (0x201FFFFF#32, .li), (0x211FFFFF#32, .lsh), (0x28123000#32, .set 0), (0x28123001#32, .set 1), (0x28123002#32, .set 2),
   (0x28123003#32, .set 3), (0x28123004#32, .set 4), (0x28123005#32, .set 5), (0x30120001#32, .branch 0), (0x31120001#32, .branch 1),
   (0x32120001#32, .branch 2), (0x33120001#32, .branch 3), (0x34120001#32, .branch 4), (0x35120001#32, .branch 5),
   (0x36100001#32, .bz), (0x37100001#32, .bnz), (0x38000001#32, .jmp), (0x39020000#32, .jr), (0x83100001#32, .call)]

def wWordsB : List (W32 × Op) :=
  [(0x40120000#32, .ld 0), (0x41120000#32, .ld 1), (0x42120000#32, .ld 2), (0x43120000#32, .ld 3), (0x44120000#32, .st 0),
   (0x45120000#32, .st 1), (0x46120000#32, .st 2), (0x47120000#32, .st 3), (0x48120000#32, .wl 0), (0x49120000#32, .wl 1),
   (0x4A120000#32, .wl 2), (0x4B120000#32, .wl 3), (0x4C120000#32, .rs 0), (0x4D120000#32, .rs 1), (0x4E120000#32, .rs 2),
   (0x4F120000#32, .rs 3), (0x50123000#32, .keycmp 0), (0x50123001#32, .keycmp 1), (0x51123000#32, .keycpy),
   (0x54120000#32, .crc), (0x55123000#32, .hkey), (0x58123001#32, .dlook), (0x59103001#32, .dins), (0x5A123001#32, .dupd),
   (0x5B120000#32, .ddel), (0x60123001#32, .sel), (0x61123001#32, .selnext), (0x62100001#32, .sadd), (0x63103001#32, .sdel)]

def wWordsC : List (W32 × Op) :=
  [(0x68723001#32, .mread), (0x69723001#32, .mwrite), (0x6A720000#32, .mdisc), (0x6B720000#32, .msdisc), (0x70023000#32, .emit),
   (0x71123000#32, .emitd), (0x78000000#32, .fence 0), (0x78000001#32, .fence 1), (0x78000002#32, .fence 2),
   (0x78000003#32, .fence 3), (0x79120000#32, .lock), (0x7A020000#32, .unlk), (0x7B100007#32, .wait 7), (0x7B100008#32, .wait 8),
   (0x80000000#32, .done), (0x81000015#32, .fail), (0x82000000#32, .yield), (0x88023FFF#32, .log), (0x8C100005#32, .mfs),
   (0x8D020002#32, .mts), (0x90100000#32, .rdtime), (0x91100000#32, .rdcyc), (0x98123000#32, .rdreg), (0x99123000#32, .wrreg)]

def wWords : List (W32 × Op) := wWordsA ++ wWordsB ++ wWordsC

theorem test_nirm_words : wWords.all (fun p => opOf p.1 == some p.2) = true := by decide +kernel

/-- Words next to those that decode to nothing: a reserved opcode, an undefined func, an unused field that is not 0. -/
theorem test_nirm_no_words : ([0x00000000#32, 0x1012300B#32, 0x11121000#32, 0x12120FC1#32, 0x1C120040#32, 0x28123006#32] ++
    [0x36110001#32, 0x38100001#32, 0x39120000#32, 0x50123002#32, 0x59113001#32, 0x68823001#32, 0x7B100009#32, 0x8D020001#32,
     0x9A000000#32]).all (fun w => opOf w == none) = true := by decide +kernel

/-- An invocation of command 9 of class `cls` that stands on the first of two words `w`. -/
def wInv (w : W32) (cls : Nat) (regs : Tab W64) : Inv :=
  { work := .command 9, image := .words [w, w], len := 2, cls := cls, dsag := false, budget := 256, commit := 9, regs := regs }

/-- Context 7 of request engine 511. -/
def wCtx : CtxId := .eng 511 7

/-- A package in SERVICE with invocation `v` in that context, its command `cmds` and store die 3 as given. -/
def wNirm (v : Inv) (cmds : List Cmd) (d : Die) : State :=
  { wRun cmds d with eng := { cmds := cmds, ctxs := [(511 * 8 + 7, some v)] } }

theorem nirmAt_of {s : State} {x : CtxId} {v : Inv} {w : W32} {o : Op} (h : Wf.ctxId x = true ∧ s.inv x = some v ∧
    v.word = some w ∧ opOf w = some o ∧ v.wait = .none ∧ s.turn x = true ∧ v.charged + o.charge ≤ v.budget) :
    NirmAt s x v w o :=
  ⟨h.1, h.2.1, h.2.2.1, h.2.2.2.1, h.2.2.2.2.1, h.2.2.2.2.2.1, h.2.2.2.2.2.2⟩

theorem wNirm_turn (v : Inv) (cmds : List Cmd) (d : Die) : (wNirm v cmds d).turn wCtx = true := by
  have h : ∀ i, i < 7 → (wNirm v cmds d).inv (.eng 511 (i % 8)) = none := by
    intro i hi
    match i, hi with
    | 0, _ | 1, _ | 2, _ | 3, _ | 4, _ | 5, _ | 6, _ => rfl
  have g : (wNirm v cmds d).lastIssued 511 = 7 := rfl
  simp only [wCtx, State.turn, g]
  exact List.all_eq_true.mpr (fun i hi => by
    have k : i < 7 := by simpa [upto] using hi
    simp [State.canIssue, h i k])

/-- A second context that can issue keeps its turn from the first, until it has issued. -/
theorem test_rotation :
    (let v := wInv 0x82000000#32 0 []
     let s : State := { wNirm v [] {} with eng := { ctxs := [(511 * 8 + 3, some v), (511 * 8 + 7, some v)] } }
     s.turn (.eng 511 3) = true ∧ s.turn (.eng 511 7) = false ∧ (s.issueBy (.eng 511 3)).turn (.eng 511 7) = true ∧
       (s.issueBy (.eng 511 3)).turn (.eng 511 3) = false) := by decide +kernel

/-- Every instruction stands somewhere with budget and a word after it: the premises of every Nirm statement. -/
theorem witness_Nirm : ∀ p, p ∈ wWords →
    NirmAt (wNirm (wInv p.1 0 []) [] {}) wCtx (wInv p.1 0 []) p.1 p.2 ∧ (wInv p.1 0 []).pc + 1 < (wInv p.1 0 []).len := by
  intro p hp
  have h : wWords.all (fun p => opOf p.1 == some p.2 && decide (p.2.charge ≤ 4)) = true := by decide +kernel
  have q := List.all_eq_true.mp h p hp
  have a : opOf p.1 = some p.2 ∧ p.2.charge ≤ 4 := by simpa using q
  have b : (wInv p.1 0 []).charged + p.2.charge ≤ (wInv p.1 0 []).budget :=
    Nat.le_trans (Nat.le_of_eq (Nat.zero_add _)) (Nat.le_trans a.2 (show 4 ≤ 256 by decide))
  exact ⟨⟨rfl, rfl, rfl, a.1, rfl, wNirm_turn _ _ _, b⟩, show 0 + 1 < 2 by decide⟩

theorem witness_NirmJumps : (0 : Int) ≤ (0 : Nat) + simm16 0x30120001#32 ∧ (0 : Nat) + simm16 0x30120001#32 < ((2 : Nat) : Int) ∧
    (0 : Int) ≤ (1 : Nat) + simm16 0x3012FFFF#32 ∧ (0 : Int) ≤ (0 : Nat) + simm20 0x38000001#32 ∧
    ((wInv 0x39020000#32 0 [(2, 1)]).g 2).toNat < (wInv 0x39020000#32 0 [(2, 1)]).len := by decide

theorem witness_NirmScratchAndAreas :
    (let w := 0x43120008#32
     let v := wInv w 0 [(2, 65520)]
     let a := (v.g (wRa w) + (w.extractLsb' 0 16).signExtend 64).toNat
     a + 8 ≤ 65536 ∧ a % 8 = 0 ∧ 4096 < a + 8) ∧
    (let w := 0x4B12FFFF#32
     let v := wInv w 0 [(2, 33)]
     (v.g (wRa w) + (w.extractLsb' 0 16).signExtend 64).toNat + 8 ≤ v.winEnd) ∧
    (let w := 0x4F120000#32
     let v := wInv w 0 [(2, 248)]
     (v.g (wRa w) + (w.extractLsb' 0 16).signExtend 64).toNat + 8 ≤ 256) := by decide

/-- Strings of 4 octets in scratch and in the response area, by g2 and g3; a namespace in g4. -/
theorem witness_NirmStrings :
    (let v := wInv 0x51123000#32 0 [(2, 0x100040000), (3, 0x2000400FC)]
     strDesc (v.g 2) = some ⟨0, 4, 1⟩ ∧ v.strReach ⟨0, 4, 1⟩ = none ∧ strDesc (v.g 3) = some ⟨252, 4, 2⟩ ∧
       v.strReach ⟨252, 4, 2⟩ = none) ∧
    (let v := wInv 0x51123000#32 0 [(2, 0x000280000), (3, 0x10028FFD8), (4, 4095)]
     strDesc (v.g 2) = some ⟨0, 40, 0⟩ ∧ v.strReach ⟨0, 40, 0⟩ = none ∧ strDesc (v.g 3) = some ⟨65496, 40, 1⟩ ∧
       v.strReach ⟨65496, 40, 1⟩ = none ∧ (v.g 4).toNat < 4096) := by decide

theorem witness_NirmDirectory :
    (let v := wInv 0x58123001#32 4 [(2, 0x000280000), (3, 0x100000000)]
     queryOk (v.g 3) = true ∧ queryMode (v.g 3) = 1 ∧ wFunc 0x58123001#32 * 16 + 336 ≤ 65536 ∧ v.cls = 4 ∧
       queryNs (v.g 3) = v.nsid ∧ strDesc (v.g 2) = some ⟨0, 40, 0⟩ ∧ v.strReach ⟨0, 40, 0⟩ = none) ∧
    (queryOk 0xFFFF0FFF = true ∧ queryMode 0xFFFF0FFF = 0 ∧ queryOk 0x200000FFF = true ∧ queryMode 0x200000FFF = 2) ∧
    (let w := 0x59104001#32
     let v := wInv w 1 [(4, 3)]
     v.cls = 1 ∧ wFunc w * 16 + 64 ≤ 65536 ∧ w64 (v.blockWord w 0) = v.g 0 ∧ blkNsid (v.blockWord w 1) = v.nsid ∧
       v.g (wRb w) = 3 ∧ blkKeyLen (v.blockWord w 5) = (v.g 3).toNat % 256 ∧ blkLength (v.blockWord w 1) = 0) ∧
    (let w := 0x5A124001#32
     let v := wInv w 1 [(2, 0x0C000000), (4, 3)]
     let s := wNirm v [] { wDie with dir := [(0, { wEntry with nsid := 0 })] }
     ownEntry v ((s.dieOf wCtx v).byHandle (regHandle (v.g (wRa w)))) = true ∧
       ((s.dieOf wCtx v).byHandle (regHandle (v.g (wRa w)))).isSome = true ∧ v.g (wRb w) = 3) ∧
    ((wInv 0x5B120000#32 0 []).cls ≠ 1 ∧ wFunc 0x5B120000#32 * 16 + 64 ≤ 65536) := by decide +kernel

/-- A search log whose pair is stem 0 with capabilities 0. -/
def wLog : Tab LogSlot := [(0, { stem := 0, caps := 0, frontPrio := 9, frontIndex := 3, any := true, multi := false, used := 0 })]

theorem witness_NirmSelection :
    (let w := 0x61123001#32
     let v := { wInv w 2 [] with log := wLog }
     wFunc w * 16 + 16 ≤ 65536 ∧
       cursorOk ((wNirm v [] wObj).viewOf v).sel v (v.g (wRa w)) (v.g (wRb w)) (w64 (v.blockWord w 1)) = true) ∧
    (let w := 0x63104001#32
     let v := { wInv w 3 [(4, 1)] with scratch := [(35, 0x0C#8)] }
     let s : State := { wNirm v [] wObj with sel := { rows := [(3, wRow 0)], copies := [(3, wRow 0)] } }
     wFunc w * 16 + 32 ≤ 65536 ∧ v.cls = 3 ∧ w64 (v.blockWord w 1) = v.g 1 ∧
       (s.dieOf wCtx v).liveBy (w32 (v.blockWord w 2 % 2 ^ 32)) = some wEntry ∧
       (s.viewOf v).sel.same (w64 (v.blockWord w 0)) (v.g 1) (w32 (v.blockWord w 2 % 2 ^ 32)) = some 3 ∧
       v.g (wRb w) = 1 ∧ (s.viewOf v).sel.ofHandle (v.g 1) (w32 (v.blockWord w 2 % 2 ^ 32)) ≠ [] ∧
       ((wNirm v [] wObj).viewOf v).sel.same (w64 (v.blockWord w 0)) (v.g 1) (w32 (v.blockWord w 2 % 2 ^ 32)) = none ∧
       ((wNirm v [] wNone).dieOf wCtx v).liveBy (w32 (v.blockWord w 2 % 2 ^ 32)) = none) := by decide +kernel

theorem witness_NirmMedia :
    (let w := 0x69723FFF#32
     let v := wInv w 1 [(3, 0x0000100000000000)]
     let d := v.g (wRb w)
     v.slot (wRd w) = .idle ∧ mdZero d = true ∧ mdKind d = 0 ∧ mdClen d = 16 ∧ mdCoff d + mdClen d ≤ 65536 ∧
       wFunc w * 16 + mdClen d = 65536 ∧ v.cls = 1 ∧ v.stagedBase = none ∧ regBase 0xFFFFFFFF = noHandle ∧
       regBase (v.g (wRa w)) ≠ noHandle ∧ ((wNirm v [] {}).dieOf wCtx v).liveBy (regBase (v.g (wRa w))) = none) ∧
    ((0x0200000000000000 : W64) = 1 <<< 57 ∧ wFunc 0x68723001#32 * 16 + 272 ≤ 65536 ∧ (0x0400000000000000 : W64) = 2 <<< 57 ∧
      wFunc 0x68723000#32 = 0) ∧
    (let w := 0x69723000#32
     let v := wInv w 1 [(3, 0x000001FFFF000000)]
     let d := v.g (wRb w)
     mdZero d = true ∧ mdKind d = 0 ∧ mdClen d = 1 ∧ mdCoff d + mdClen d = 65536 ∧ wFunc w * 16 + mdClen d ≤ 65536 ∧
       mdChunk d * 65536 + mdCoff d + mdClen d ≤ 2 ^ 40) ∧
    (let v := { wInv 0x69723000#32 1 [(3, 0x0200000000000005)] with dsag := true }
     ((wNirm v [] {}).dieOf wCtx v).put? (v.g 2).toNat = none ∧ mdPlain (v.g 3) 1 = true ∧ wFunc 0x69723000#32 = 0) ∧
    (let v := { wInv 0x69723000#32 1 [(2, 6), (3, 0x0200000000000000)] with dsag := true, msg := wMsg 0xFF 0 0 0 0 [0xAA#8] [1#8], msgLen := 42 }
     let s := wNirm v [] { wNone with puts := [(6, some (wPut []))] }
     (s.dieOf wCtx v).put? (v.g 2).toNat = some (wPut []) ∧ (wPut []).keyHash = v.g 0 ∧ v.nsid = 5 ∧
       mdChunk (v.g 3) = 0 ∧ partRange (wPut []) 0 (v.msgLen - 40 - msgKeyLen v.msg) = false ∧
       partRange (wPut []) 65536 (v.msgLen - 40 - msgKeyLen v.msg) = true) ∧
    (let c := wCmd 1 (.words [0x6B720000#32]) []
     let v := wInv 0x6B720000#32 1 []
     (wNirm v [c] {}).cmd? v.commit = some c ∧ v.g (wRa 0x6B720000#32) = v.g 0) ∧
    (let v := { wInv 0x6B720000#32 1 [] with slots := [(7, .busy (.mdisc 0 0) 0)] }
     v.slot (wRd 0x6B720000#32) ≠ .idle ∧ v.cls = 1 ∧ v.g (wRa 0x6B720000#32) = v.g 0) := by decide +kernel

theorem witness_NirmOutput :
    (let v := wInv 0x70023000#32 0 [(2, 0), (3, 256)]
     (v.g 2).toNat + (v.g 3).toNat ≤ 256 ∧ v.outLen + (v.g 3).toNat ≤ 4096 ∧ (v.g 3).toNat ≠ 0) ∧
    (let v := { wInv 0x70023000#32 0 [(2, 0), (3, 256)] with outLen := 1179392 }
     v.outLen + (v.g 3).toNat ≤ 1179648 ∧ 4096 < v.outLen + (v.g 3).toNat ∧ v.large = false ∧
       (wNirm v [] {}).largeQueue (511 / 128) = [] ∧ (wNirm v [] {}).unitsUsed (511 / 128) < 16) ∧
    (let v := { wInv 0x70023000#32 0 [] with outLen := 4096 }
     let s : State := { wNirm v [] {} with eng := { largeQ := [(3, [3 * 1024])] } }
     s.largeQueue (511 / 128) ≠ []) ∧
    (let v := wInv 0x71123000#32 0 [(1, 1), (2, 0x0C000000), (3, 0)]
     let e := { wEntry with length := 1 }
     ((wNirm v [] { wDie with dir := [(0, e)] }).dieOf wCtx v).liveBy (regHandle (v.g 2)) = some e ∧
       (v.g 3).toNat + (v.g 1).toNat ≤ e.length ∧ v.g 1 ≠ 0 ∧ v.descs < 256) := by decide +kernel

theorem witness_NirmSynchronisation :
    (wInv 0x78000000#32 4 []).cls = 4 ∧
    (let v := wInv 0x79120000#32 0 [(2, 0x00F00)]
     let s := wNirm v [] {}
     regLock (v.g 2) = some 0x00F00 ∧ Wf.placeDie 0x00F00 = 0 ∧ (s.locksOf (lockUser wCtx)).length < 4 ∧
       0x00F00 ∉ s.locksOf (lockUser wCtx)) ∧
    (let v := wInv 0x7A020000#32 0 [(2, 0x00F00)]
     let s : State := { wNirm v [] {} with locks := [(0x00F00, { owner := some (lockUser wCtx) })] }
     0x00F00 ∈ s.locksOf (lockUser wCtx)) ∧
    ({ wInv 0x7B100007#32 0 [] with slots := [(7, .done 3)] }.slot 7 = .done 3 ∧
      { wInv 0x7B100007#32 0 [] with slots := [(7, .busy (.mdisc 0 0) 0)] }.slot 7 = .busy (.mdisc 0 0) 0) ∧
    (let v := { wInv 0x7B100008#32 1 [] with dsag := true }
     let c := wCmd 1 (.words []) []
     let q := { c with data := some ⟨3, 262144, true, true⟩ }
     v.dsag = true ∧ (wNirm v [c] {}).cmd? v.commit = some c ∧ c.placedOk = false ∧ (wNirm v [q] {}).cmd? v.commit = some q ∧
       q.placedOk = true) := by decide +kernel

theorem witness_NirmEndsAndRegisters :
    (let c := wCmd 0 (.words []) []
     let v := { wInv 0x80000000#32 0 [] with out := [.octets (zeros 64)], outLen := 64 }
     let s := wNirm v [c] {}
     v.work = .command v.commit ∧ s.cmd? v.commit = some c ∧ 64 ≤ segsLen v.out ∧ s.locksOf (lockUser wCtx) = [] ∧
       beAt ((s.viewOf v).segsRead v.out 0 2).1 0 2 = 0 ∧ badStatus 0 = false ∧ v.staged = [] ∧
       (s.die c.die).applyHeld v.staged = false) ∧
    (let c := wCmd 0 (.words []) []
     let v := { wInv 0x80000000#32 0 [] with staged := [.del 0], slots := [(0, .busy (.staged 0 0 [] 0) 0)] }
     let w := { wInv 0x80000000#32 0 [] with staged := [.pend none ⟨0, []⟩ 1 0] }
     v.staged ≠ [] ∧ v.writing = true ∧ ((wNirm v [c] wNone).die c.die).applyHeld v.staged = false ∧
       ((wNirm w [c] { wNone with sweepTo := 0 }).die c.die).applyHeld w.staged = true) ∧
    (let c := wCmd 0 (.words []) []
     let v := { wInv 0x80000000#32 0 [] with out := [.octets (0x80#8 :: zeros 63)], outLen := 64 }
     let s := wNirm v [c] {}
     beAt ((s.viewOf v).segsRead v.out 0 2).1 0 2 = 0x8000 ∧ badStatus 0x8000 = false) ∧
    ((0x81000015#32 : W32).extractLsb' 0 16).toNat ≠ 0 ∧ badStatus ((0x81000015#32 : W32).extractLsb' 0 16).toNat = false ∧
    (wNirm (wInv 0#32 0 []) [] {}).mode.mode ≠ .reset ∧ wFunc 0x8C100005#32 = 5 := by decide +kernel

theorem witness_NirmPrivilegeAndFaults :
    (reaches (.mgmt 0) 0x98B0F = true ∧ reaches (.mgmt 4) 0x98B0F = true ∧ reaches (.mgmt 3) 0x98B0F = false) ∧
    (let c := wCmd 0 (.words []) []
     let v := wInv 0x00000000#32 0 []
     let s := wNirm v [c] {}
     Wf.ctxId wCtx = true ∧ s.inv wCtx = some v ∧ v.word = some 0x00000000#32 ∧ v.wait = .none ∧ v.work = .command v.commit ∧
       s.cmd? v.commit = some c ∧ opOf 0x00000000#32 = none) ∧
    (let v := { wInv 0x10123000#32 0 [] with charged := 256 }
     opOf 0x10123000#32 = some (.alu 0) ∧ v.budget < v.charged + 1) := by decide +kernel

/-! ### Ends of waits, streams -/

/-- Context 7 of engine 511 waits for `wt`, with command 9 committed and store die 3 as given. -/
def wWait (wt : Wait) (d : Die) : State :=
  wNirm { wInv 0x82000000#32 1 [] with wait := wt } [wCmd 1 (.words []) []] d

theorem waits_for (wt : Wait) (d : Die) : WaitsFor (wWait wt d) wCtx { wInv 0x82000000#32 1 [] with wait := wt } wt :=
  ⟨rfl, rfl, rfl⟩

theorem witness_DirectoryWakes :
    (∀ wt d, WaitsFor (wWait wt d) wCtx { wInv 0x82000000#32 1 [] with wait := wt } wt) ∧
    (let v := wInv 0x82000000#32 1 []
     let s := wNirm v [wCmd 1 (.words []) []] { wObj with puts := [(6, some (wPut []))] }
     ((s.dieOf wCtx v).candidates 0 5).length ≤ 1 ∧ ((s.dieOf wCtx v).candidates 0 5)[0]? = some wEntry ∧
       (s.dieOf wCtx v).put? 6 = some (wPut []) ∧ (s.dieOf wCtx v).put? 7 = none ∧
       (s.dieOf wCtx v).byHandle (handleOf 0 3 0) = some wEntry ∧ (s.dieOf wCtx v).byHandle noHandle = none ∧
       s.cmd? v.commit = some (wCmd 1 (.words []) []) ∧ s.succReady v.commit 0 = true ∧
       (s.viewOf v).liveKeys 5 (fun k => decide (octetsCmp [0xAA#8] k < 0)) = []) ∧
    (let v := { wInv 0x82000000#32 1 [] with wait := .lookup 1 0 5 0 0, ticket := 3 }
     let s := wNirm v [wCmd 1 (.words []) []] wObj
     v.wait.directory = true ∧ s.portServes wCtx v = true) ∧
    (let v := wInv 0x82000000#32 1 []
     let c := { wCmd 1 (.words []) [] with commit := 8 }
     (wNirm v [c, wCmd 1 (.words []) []] {}).succReady v.commit 0 = false) :=
  ⟨waits_for, by decide +kernel, by decide +kernel, by decide +kernel⟩

theorem witness_StreamWakes :
    (let s := wWait (.ins 1 3 [] none) wNone
     (s.cmd? 9).map (fun c => (s.die c.die).ledger.appliedBelow c.commit) = some true) ∧
    (let s := wWait (.ins 1 3 [] none) { wNone with ledger := { stream := [(8, none)] } }
     (s.cmd? 9).map (fun c => (s.die c.die).ledger.appliedBelow c.commit) = some false) ∧
    (let s : State := { wWait (.sadd 1 0 0 9 (handleOf 0 3 0)) { wObj with grant := 5 } with lease := { state := .held, epoch := 5 } }
     s.allocRuns = true ∧ s.sel.appliedBelow 9 = true ∧ s.sel.place 0 = some 0) ∧
    (let s : State := { wWait (.sel 1 0 0 0) wObj with lease := { state := .held }, sel := { rows := [(3, wRow 0)], copies := [(3, wRow 0)] } }
     s.searchReady = true ∧ s.sel.damaged = [] ∧ (wInv 0x82000000#32 1 []).staged = [] ∧
       s.sel.matching 0 0 = [(9, 3, handleOf 0 3 0)] ∧ s.sel.matching 1 0 = []) := by decide +kernel

/-- No row is free once every bank is retired. -/
theorem witness_StreamWakes_full : ({ banks := (upto 16).map (fun b => (b, { retired := true })) } : Sel).place 0 = none := by
  decide +kernel

theorem witness_MediaAndRegisterWakes :
    (let v := { wInv 0x82000000#32 1 [] with slots := [(7, .busy (.value (handleOf 0 3 0) 0 0 0 0) 0)] }
     let s := wNirm v [wCmd 1 (.words []) []] wObj
     Wf.ctxId wCtx = true ∧ s.inv wCtx = some v ∧ v.slot 7 = .busy (.value (handleOf 0 3 0) 0 0 0 0) 0 ∧
       v.wait ≠ .factory .erase ∧ v = { v with staged := v.staged.take 0 } ∧
       ((s.die (homeDie wCtx)).opReads (.value (handleOf 0 3 0) 0 0 0 0)).all (s.die (homeDie wCtx)).lunFree = true ∧
       s.cmd? v.commit = some (wCmd 1 (.words []) []) ∧ (s.dieOf wCtx v).liveBy (handleOf 0 3 0) = some wEntry ∧
       0 * 65536 + 0 + 0 ≤ wEntry.length ∧ (s.dieOf wCtx v).valueRead wEntry 0 0 = ([], none) ∧
       (s.dieOf wCtx v).byHandle noHandle = none ∧ v.slot 6 = .idle) ∧
    ({ wInv 0x82000000#32 1 [] with wait := .slot 1 7 }.wait = .slot 1 7) ∧
    (let v : Inv := { wInv 0x98123000#32 0 [] with work := .program 32 none, wait := .wrreg 0 0 0 }
     v.wait = .wrreg 0 0 0 ∧ v.work = .program 32 none) := by decide +kernel

theorem witness_PlainWakes :
    (let u := lockUser wCtx
     let s : State := { wWait (.lock 1 0x00F00) {} with locks := [(0x00F00, { aband := true, waiters := [u] })] }
     Wf.lock 0x00F00 = true ∧ (s.hwLock 0x00F00).owner = none ∧ (s.hwLock 0x00F00).waiters = u :: [] ∧ u.ctxId = wCtx ∧
       s.inv wCtx = some { wInv 0x82000000#32 1 [] with wait := .lock 1 0x00F00 }) ∧
    (State.reset.hwLock 0x00F00).waiters = [] ∧
    (let c := wCmd 1 (.words []) []
     (wWait (.fence 1) {}).fenceOk c 1 = true ∧ (wWait (.fence 3) {}).fenceOk c 3 = true ∧
       (wNirm (wInv 0x82000000#32 1 []) [{ c with commit := 8 }, c] {}).fenceOk c 1 = false) ∧
    (let v := { wInv 0x82000000#32 1 [] with wait := .large 0 256 }
     let s : State := { wNirm v [] {} with eng := { ctxs := [(511 * 8 + 7, some v)], largeQ := [(3, [511 * 8 + 7])] } }
     s.largeQueue 3 = (511 * 8 + 7) :: [] ∧ s.unitsUsed 3 < 16 ∧ s.inv (.eng ((511 * 8 + 7) / 8) ((511 * 8 + 7) % 8)) = some v) ∧
    (∀ d, WaitsFor (wWait .icache d) wCtx { wInv 0x82000000#32 1 [] with wait := .icache } .icache) :=
  ⟨by decide +kernel, by decide, by decide +kernel, by decide +kernel, fun d => waits_for .icache d⟩

theorem witness_WaitLimit : ∀ wt, WaitsFor (wWait wt {}) wCtx { wInv 0x82000000#32 1 [] with wait := wt } wt ∧
    (wInv 0x82000000#32 1 []).work = .command (wInv 0x82000000#32 1 []).commit ∧
    (wWait wt {}).cmd? (wInv 0x82000000#32 1 []).commit = some (wCmd 1 (.words []) []) :=
  fun wt => ⟨waits_for wt {}, rfl, rfl⟩

theorem witness_StreamsApply :
    (let s : State := { lease := { state := .held }, sel := { stream := [(9, some [.write 4194303 1 2 3 4])], reserved := [(4194303, 9)] } }
     s.sel.stream = (9, some [.write 4194303 1 2 3 4]) :: [] ∧ s.allocRuns = true ∧ s.sel.reserved = [(4194303, 9)] ∧
       s.shutOf (bankArb (bankOf 4194303)) = false ∧ s.cmd? 9 = none ∧
       (s.die (bankOf 4194303 / 4)).logFull = false) ∧
    ({ stream := [(9, none)] } : Sel).stream = (9, none) :: [] ∧
    (let l : Ledger := { stream := [(9, some [⟨3, 2, 1, 0⟩])], ds := [(3, 1000)] }
     l.stream = (9, some [⟨3, 2, 1, 0⟩]) :: [] ∧ l.caps = [] ∧
       ∀ q, q < 4 → tabGet (fun _ => 0) (l.add ⟨3, 2, 1, 0⟩).lcount q ≤ l.eolLimit q) := by decide +kernel

theorem witness_SelectionRepair :
    (let s : State := { mode := { mode := .service }, sel := { banks := [(15, { inService := true, scrub := 262143, reloading := true })] } }
     (s.bank 15).inService = true ∧ (s.bank 15).scrub < 262144 ∧ s.shutOf (bankArb 15) = false ∧ s.inReset = false ∧
       s.sel.row 4194303 = s.sel.copy 4194303 ∧
       (s.bank 15).reloading = true) ∧
    (let s : State := { sel := { copies := [(4194303, 5)], banks := [(15, { inService := true, scrub := 262143 })] } }
     s.sel.row 4194303 ≠ s.sel.copy 4194303 ∧ bankOf 4194303 = 15) ∧
    (State.reset.bank 0).inService = false ∧
    ((wServe.die 3).cascade = true ∧ wServe.inReset = false ∧ wServe.eng.cmds = []) := by decide +kernel

/-! ### Recorder, arbiters, faults of units -/

/-- A recorder outside RESET, otherwise as given. -/
def wRec (r : Recorder) : State := { wServe with recorder := r }

/-- An event of a code that is not held, and one of a held code. -/
def wEvent (code : Nat) : Event := { code := code, source := 0, time := 0 }

theorem witness_RecorderInputAndWriter :
    (({ input := [wEvent 0x0010] } : Recorder).stateCode = 0 ∧ heldCode 0x0010 = true ∧ heldCode 0x0100 = false ∧
      ({ fifo := List.replicate 63 (wEvent 1) } : Recorder).fifo.length < 64 ∧
      64 ≤ ({ fifo := List.replicate 64 (wEvent 1) } : Recorder).fifo.length) ∧
    ((wRec {}).recorder.window = (wRec {}).windowNo winMs ∧
      tabGet (fun _ => 0) ({ counts := [(0x0100, 15)] } : Recorder).counts 0x0100 < ({} : Recorder).rateNow ∧
      ({} : Recorder).rateNow ≤ tabGet (fun _ => 0) ({ counts := [(0x0100, 16)] } : Recorder).counts 0x0100) ∧
    (({ freeze := true } : Recorder).stateCode = 1 ∧ ({ count := 65536 } : Recorder).stateCode = 2 ∧
      ({ failed := true } : Recorder).stateCode = 3) ∧
    (({ fifo := [wEvent 1], count := 65535 } : Recorder).stateCode = 0 ∧ (65535 : Nat) + 1 = 65536) ∧
    (({ pendLost := 1 } : Recorder).stateCode = 0 ∧ ({ pendLost := 1 } : Recorder).lastLost = false ∧
      ({ pendLost := 1 } : Recorder).pendLost ≠ 0) := by decide

theorem witness_RecorderControlAndFailure :
    (wServe.mode.mode ≠ .reset ∧ field 0x03FF0001 16 10 ≠ 0 ∧ (0x03FF0001 : W32).getLsbD 1 = false) ∧
    (field 0x00010002 16 10 ≠ 0 ∧ (0x00010002 : W32).getLsbD 1 = true ∧ ({ freeze := true } : Recorder).failed = false ∧
      ({ freeze := true } : Recorder).stateCode ≠ 0) ∧
    (field 0x0000FFFD 16 10 = 0) ∧ ({} : Recorder).stateCode = 0 ∧
    ((1 : Nat) ≤ 3 ∧ (65535 : Nat) < 65536 ∧ ({} : Recorder).fsCount = 0 ∧ ({ fsCount := 255 } : Recorder).fsCount ≠ 0) ∧
    ({ testing := true } : Recorder).testing = true ∧ ({} : Recorder).testing = false := by decide

/-- Arbiter 15 of flash channels of region 3, store die 3. -/
def wArbP : Nat := 0x98B0F

/-- A package in SERVICE with that arbiter as `a`. -/
def wArb (a : Arb) : State := { wServe with arbs := [(wArbP, a)] }

/-- Requester k at arbiter `wArbP`, high with rank `rank`, asked by the unit itself. -/
def wReq2 (rank : Nat) : ArbReq := { high := true, rank := rank, pend := [wArbP] }

theorem witness_ArbRequest : Wf.arb wArbP = true ∧ Wf.requester wArbP 6 = true ∧ Wf.place wArbP = true ∧
    wArbP ∈ ({ wServe with masked := [wArbP] } : State).masked ∧ ¬ wArbP ∈ wServe.masked ∧
    (let s := wArb { owner := some 6 }
     (s.arb wArbP).owner = some 6 ∧ (s.arb wArbP).granted = false ∧ (s.arb wArbP).asking wArbP = [] ∧
       ((s.arb wArbP).req wArbP 6).qmasked = false ∧ s.shutOf wArbP = false ∧ s.dumpRuns = false) ∧
    (let s := wArb { owner := some 5 }
     (s.arb wArbP).owner ≠ some 6 ∧ (s.arb wArbP).granted = false) ∧
    (let s := wArb { owner := some 5, granted := true, reqs := [(6, { high := true })] }
     (s.arb wArbP).owner = some 5 ∧ (s.arb wArbP).granted = true ∧ (s.arb wArbP).grantHigh = false ∧
       (s.arb wArbP).grantNoRev = false ∧ Wf.placeClass wArbP ≠ 0x0E ∧ ((s.arb wArbP).req wArbP 6).high = true ∧
       ((s.arb wArbP).req wArbP 6).qmasked = false) := by decide

theorem witness_ArbDecision :
    ((wArb { granted := true }).arb wArbP).granted = true ∧ ((wArb { shut := true }).shutOf wArbP = true ∧
      (wArb { shut := true }).dumpRuns = false) ∧
    (let s := wArb { reqs := [(1, wReq2 2), (6, wReq2 3)] }
     (s.arb wArbP).granted = false ∧ s.shutOf wArbP = false ∧ s.dumpRuns = false ∧ isDump wArbP 6 = false ∧
       ((s.arb wArbP).req wArbP 6).pend = wArbP :: [] ∧ ((s.arb wArbP).req wArbP 6).high = true ∧
       ((s.arb wArbP).req wArbP 6).qmasked = false ∧
       ∀ j, j < 7 → j ≠ 6 → ((s.arb wArbP).req wArbP j).pend ≠ [] →
         ((s.arb wArbP).req wArbP j).rank < ((s.arb wArbP).req wArbP 6).rank) := by decide

theorem witness_ArbEndAndShut :
    (let s := wArb { granted := true, owner := some 5, reqs := [(6, wReq2 3)] }
     (s.arb wArbP).owner = some 5 ∧ (s.arb wArbP).granted = true ∧ (s.arb wArbP).grantHigh = false ∧
       (s.arb wArbP).grantNoRev = false ∧ Wf.placeClass wArbP ≠ 0x0E ∧ ((s.arb wArbP).req wArbP 6).high = true ∧
       ((s.arb wArbP).req wArbP 6).pend ≠ []) ∧
    (let s := wArb { granted := true, owner := some 6 }
     (s.arb wArbP).owner = some 6 ∧ ((s.arb wArbP).req wArbP 6).qmasked = false ∧
       ∀ j, j < 7 → j ≠ 6 → ((s.arb wArbP).req wArbP j).pend = []) ∧
    ((wArb {}).unitDown wArbP = false ∧ ((wArb {}).fn (arbFn wArbP)).state = .running ∧
      field 0x00000101 8 8 = ((wArb {}).arb wArbP).winMul ∧ field 0x00000101 8 8 ≠ 0) ∧
    (let s : State := { wArb {} with mode := { mode := .service, fns := [(arbFn wArbP, { state := .stopped })] } }
     s.unitDown wArbP = false ∧ (s.fn (arbFn wArbP)).state ≠ .running ∧ field 0x00000101 8 8 = (s.arb wArbP).winMul ∧
       (0x00000101 : W32).getLsbD 0 ≠ (s.arb wArbP).shut) := by decide

theorem witness_LockForce : wServe.unitDown (placeOf 4 0 0 0x01 0) = false ∧ wServe.unitDown (placeOf 0 0 0 0x01 0) = false ∧
    (0x000003FF : W32).getLsbD 31 = false ∧ ((0x80000100 : W32).getLsbD 31 = true ∧ field 0x80000100 8 2 ≠ 0) ∧
    ((0x800000FF : W32).getLsbD 31 = true ∧ field 0x800000FF 8 2 = 0) := by decide

/-- Faults of engines: none yet in this window, and two already. -/
theorem witness_EngineAndClusterFaults : wServe.mode.mode ≠ .reset ∧
    ((wServe.engFault 511).retired = false ∧ hits (wServe.engFault 511) (wServe.windowNo win60s) < 3 ∧ wServe.eng.cmds = []) ∧
    (let s : State := { wServe with eng := { faults := [(511, { resets := 2 })], clusters := [(63, { resets := 2 })] } }
     (s.engFault 511).retired = false ∧ 3 ≤ hits (s.engFault 511) (s.windowNo win60s) ∧ (s.clFault 63).retired = false ∧
       3 ≤ hits (s.clFault 63) (s.windowNo win60s)) ∧
    (let u := lockUser wCtx
     let s : State := { wServe with locks := [(0x00F00, { owner := some u }), (0x00F01, { owner := some (lockUser (.eng 0 0)) })] }
     (s.hwLock 0x00F00).owner = some u ∧ u.place = enginePlace 511 ∧
       (s.hwLock 0x00F01).owner = some (lockUser (.eng 0 0)) ∧ (lockUser (.eng 0 0)).place ≠ enginePlace 511) ∧
    (let c := { wFac 0x01 0 0 0 0 0 [0xAA#8] [] with phase := .running wCtx }
     let s := wRun [c] wNone
     s.eng.cmds = [c] ∧ c.engine = 511 ∧ c.phase = .running (.eng 511 7) ∧ s.engineFor c.region ((511 + 1) % 32) = some 480) ∧
    (wServe.clFault 63).retired = false := by decide +kernel

theorem witness_ManagementAndPortDieFaults :
    ((wServe.mgmtFault 4).retired = false ∧ hits (wServe.mgmtFault 4) (wServe.windowNo win60s) < 3 ∧ wServe.eng.treqs = []) ∧
    (let s : State := { wServe with eng := { mgmtFaults := [(0, { resets := 2 }), (4, { resets := 2 })] } }
     3 ≤ hits (s.mgmtFault 4) (s.windowNo win60s) ∧ s.eng.treqs = [] ∧ s.eng.cmds = [] ∧ (s.die (4 - 1)).cause = 0 ∧
       3 ≤ hits (s.mgmtFault 0) (s.windowNo win60s)) ∧
    Awake wServe ∧
    (let s := wMac { rings := [(7, [{ octets := [], time := 0 }])] }
     s.mode.mode ≠ .reset ∧ 0 < ((s.mac 124).ring 7).length) :=
  ⟨by decide, by decide, ⟨by decide, by decide⟩, by decide⟩

theorem witness_HbmFaults : (wServe.mode.mode ≠ .reset ∧ (wServe.die 3).stackLost = false ∧ wServe.eng.cmds = [] ∧
      (wServe.die 3).cause ≠ 2 ∧ (wServe.die 3).live = true ∧ (wServe.die ((3 + 1) % 4)).stackLost = false) ∧
    (wRun [] {}).mode.mode ≠ .reset ∧ ((wRun [] {}).die 3).live = false ∧
    ((tabGet (fun _ => {}) (wServe.die 3).pseudo 31).retired = false ∧ (tabGet (fun _ => {}) (wServe.die 3).pseudo 31).ue + 1 < 4) ∧
    (let s := wRun [] { wDie with pseudo := [(31, { ue := 3 })], dir := [(0, { wEntry with cached := true })] }
     (tabGet (fun _ => {}) (s.die 3).pseudo 31).retired = false ∧
       (tabGet (fun _ => {}) (s.die 3).pseudo 31).window = s.windowNo winDay ∧
       4 ≤ (tabGet (fun _ => {}) (s.die 3).pseudo 31).ue + 1 ∧ (s.die 3).cause ≠ 2 ∧ ((s.die 3).entry 0).cached = true) := by
  decide

theorem witness_DieLinks : (wServe.link 15).inService = false ∧
    (let s := wRun [] { wDie with links := [(1, { inService := true })] }
     s.mode.mode ≠ .reset ∧ s.eng.cmds = [] ∧ (s.link 15).inService = true ∧ (s.link 15).cycleReplays + 1 < 8 ∧
       (s.link 15).retraining = false) ∧
    (let s := wRun [] { wDie with links := [(1, { inService := true, cycleReplays := 7, retrains := 3, retraining := true })] }
     (s.link 15).cycleAt = s.clock.cycles ∧ (s.link 15).inService = true ∧ 8 ≤ (s.link 15).cycleReplays + 1 ∧
       (s.link 15).window = s.windowNo win10s ∧ (s.link 15).retrains + 1 = 4 ∧ (s.link 15).retraining = true) := by decide

/-! ### Media -/

/-- A slot of region 0, store die 3: chunk 0 of the object `wEntry`. -/
def wSlot (verified : Bool) (src : Option Nat) : Slot :=
  { handle := handleOf 0 3 0, chunk := 0, slc := false, sys := false, keyrec := true, seq := 5, nsid := 5, keyHash := 0, kslot := 0,
    key := 0, data := [1#8], record := [], src := src, verified := verified, named := verified }

/-- The same in SLC mode, not yet verified. -/
def wSlc : Slot := { wSlot false none with slc := true }

/-- Superblock of region r at die position 0 on block n of every channel. -/
def wSuper (r n : Nat) : Super :=
  { region := r, pos := 0, slc := false, stream := .host, blocks := List.replicate 16 (some n) }

/-- A package in SERVICE with that profile and store die 3 as given; no die reported on channel 0. -/
def wMedia (d : Die) : State := { wRun [] d with profiles := [wProfile] }

/-- The same with one die on channel 0, so that the pools of free superblocks are not low. -/
def wMediaD (d : Die) : State := { wMedia d with dies := [(0, { channels := [(0, { dies := 1 })] }), (3, d)] }

/-- Channel 63 trained with `dies` dies at `bin`. -/
def wChan (dies bin fails : Nat) : Die :=
  { wDie with flash := [(1022, { populated := true }), (1023, { populated := true })],
              channels := [(63, { trained := true, dies := dies, bin := bin, fails := fails })] }

theorem witness_ChannelCare :
    (let s := wMedia { wDie with flash := [(1023, { populated := true, resetting := true })] }
     s.mode.mode ≠ .reset ∧ ((s.die 3).flashDie 1023).populated = true ∧ ((s.die 3).flashDie 1023).failed = false ∧
       ((s.die 3).flashDie 1023).resetting = true) ∧
    (let s := wMedia { wChan 16 3 0 with slots := [(pcaOf (1023 * 16384) 0, some (wSlot false none))] }
     ((s.die 3).flashDie 1023).resetting = false ∧ ((s.die 3).channel (1023 / 16)).retired = false ∧
       s.flashQueued 3 1023 = true ∧ s.mode.mode ≠ .holdup ∧ s.mode.mode.serving = true ∧ 15 < ((s.die 3).channel 63).dies ∧
       s.flashQueued 3 1022 = false ∧ (s.die 3).planned 1022 = false) ∧
    (let s := wMedia (wChan 16 3 0)
     ((s.die 3).channel 63).trained = true ∧ ((s.die 3).channel 63).retired = false ∧ ((s.die 3).channel 63).dies ≤ 16 ∧
       3 < targetsOf ((s.die 3).channel 63).dies ∧ s.targetGone 3 63 3 = false ∧ failsNow s ((s.die 3).channel 63) < 8 ∧
       0 < ((s.die 3).channel 63).bin ∧
       (let used := ((upto (targetsOf 16)).filter (fun k => !s.targetGone 3 63 k)).map
          (fun k => (k, resultOf [.bin 2, .bin 1, .bin 9, .failed] (3 - 1) k))
        trainedBin (used.map (fun u => u.2)) = some 1 ∧ (3, Trained.failed) ∈ used) ∧
       (let used := ((upto (targetsOf 16)).filter (fun k => !s.targetGone 3 63 k)).map (fun k => (k, resultOf [] (3 - 1) k))
        trainedBin (used.map (fun u => u.2)) = none)) ∧
    8 ≤ failsNow (wMedia (wChan 16 3 7)) (((wMedia (wChan 16 3 7)).die 3).channel 63) ∧
    (let s := wMedia (wChan 4 0 0)
     ((s.die 3).channel 63).bin = 0 ∧ 0 < targetsOf ((s.die 3).channel 63).dies ∧ s.targetGone 3 63 0 = false ∧
       (∀ k, k < targetsOf ((s.die 3).channel 63).dies → k ≠ 0 → s.targetGone 3 63 k = true)) ∧
    (let s := wMedia (wChan 16 0 0)
     1 < targetsOf ((s.die 3).channel 63).dies ∧ s.targetGone 3 63 1 = false) := by decide +kernel

/-- Chunk slot 0 of block 7 at position 0 of channel 2. -/
def wPca : Nat := pcaOf (2 * 16 * 16384 + 7) 0

/-- P and Q of stripe 0 on block 7. -/
def wParity : Tab (Option Slot) :=
  [(pcaOf 7 0, some { plainSlot (.parity false) 0 false with verified := true }),
   (pcaOf (16 * 16384 + 7) 0, some { plainSlot (.parity true) 0 false with verified := true })]

theorem witness_ReadsAndPrograms :
    (let s := wMedia { wObj with slots := [(wPca, some (wSlot true none))] }
     s.mode.mode ≠ .reset ∧ wPca < 2 ^ 36 ∧ (s.die 3).slot wPca = some (wSlot true none) ∧ (s.die 3).lunFree wPca = true ∧
       (s.die 3).erased (pcaChannel wPca) (pcaPos wPca) = false ∧ firstGood ([.failed, .failed, .failed, .failed].take 4) = none ∧
       (s.die 3).rebuilds wPca [] = false) ∧
    (let s := wMedia { wObj with slots := wParity ++ [(wPca, some (wSlot true none))], supers := [(0, some (wSuper 0 7))] }
     (s.die 3).slot wPca = some (wSlot true none) ∧ (s.die 3).rebuilds wPca [] = true ∧
       failsNow s ((s.die 3).channel (pcaChannel wPca)) < 8) ∧
    (let x := { wSuper 0 7 with slc := true, filled := 14 }
     let s := wMedia { wObj with dir := [(0, { wEntry with length := 1 })], slots := [(wPca, some wSlc)], supers := [(0, some x)] }
     (s.die 3).slot wPca = some wSlc ∧ wSlc.verified = false ∧ (s.die 3).lunFree wPca = true ∧
       (s.die 3).groupWhole wPca wSlc.slc = true ∧ (s.die 3).superOf (pcaBlock wPca) = some 0 ∧ (s.die 3).super 0 = some x ∧
       wSlc.kind = .data ∧ wSlc.named = false ∧ wSlc.sys = false ∧ wSlc.src = none ∧ (s.die 3).mapIndex wSlc = some 0 ∧
       (s.die 3).parityVerified x (pcaSlot wPca) = true ∧
       ((s.die 3).stripeSlots x (pcaSlot wPca)).filter (fun u => !u.2.named && decide (u.2.kind = .data)) = [(wPca, wSlc)]) ∧
    (let x := { wSuper 0 7 with slc := true, filled := 1 }
     ({ wObj with slots := [(wPca, some wSlc)], supers := [(0, some x)] } : Die).parityVerified x (pcaSlot wPca) = false) := by
  decide +kernel

theorem witness_Erases :
    (let s := wMedia { wObj with supers := [(0, some { wSuper 0 7 with closed := true, emptied := some 0 })] }
     s.mode.mode ≠ .reset ∧ s.mode.mode ≠ .holdup ∧ pcaBlock wPca < 1024 * 16384 ∧ (s.die 3).mayErase (pcaBlock wPca) = true ∧
       ((s.die 3).flashDie (pcaBlock wPca / 16384)).resetting = false ∧ (s.die 3).mayErase 0 = false) ∧
    (let s := wMedia { wObj with supers := [(0, some { wSuper 0 7 with closed := true, emptied := some 0 })],
                                 blocks := [(pcaBlock wPca, { erases := 2999 })] }
     field ((s.die 3).region (pcaBlock wPca / 4194304)).live.wear 16 16 ≤ ((s.die 3).block (pcaBlock wPca)).erases + 1) := by
  decide +kernel

/-- Open superblocks of every stream in region 0, and HOST ones in the others. -/
def wOpen : Tab Region := [(0, { host := some 1, copy := some 2, cold := some 3, levelling := true }), (1, { host := some 1048577 }),
  (2, { host := some 2097153 }), (3, { host := some 3145729 })]

/-- Those superblocks, and `x` as superblock 0. -/
def wSupers (x : Super) : Tab (Option Super) :=
  [(0, some x), (1, some (wSuper 0 1)), (2, some (wSuper 0 2)), (3, some (wSuper 0 3)), (1048577, some (wSuper 1 1)),
    (2097153, some (wSuper 2 1)), (3145729, some (wSuper 3 1))]

/-- Those streams with region 0's `levelling` and `live`. -/
def wRegs (b : Bool) (l : RegionCfg) : Tab Region := [(0, { host := some 1, copy := some 2, cold := some 3, levelling := b, live := l })]

/-- Store die 3 with one object, one verified chunk of it in superblock 0, which is `x`, and regions `g`. -/
def wWorkIn (g : Tab Region) (x : Super) : Die :=
  { wObj with regions := g, supers := wSupers x, slots := [(wPca, some (wSlot true none))],
              map := [(0, { pca := wPca, onMedia := true })] }

/-- That die with `wOpen`. -/
def wWork (x : Super) : Die := wWorkIn wOpen x

/-- A closed superblock with the blocks numbered 7. -/
def wClosed : Super := { wSuper 0 7 with closed := true }

/-- The HOST superblock of region r there. -/
def wHostOf (r : Nat) : Nat := if r = 0 then 1 else r * 1048576 + 1

/-- A value of one octet of the object `wEntry`. -/
def wExtent : Extent := { ref := 262144, owner := .object (handleOf 0 3 0), nsid := 5, commit := 4, chunk0 := 0, value := [1#8], current := true }

/-- Store die 3 with that value to drain, a record to journal, an epoch due. -/
def wDrain : Die :=
  { wWork wClosed with dir := [(0, { wEntry with length := 1 })], extents := [wExtent], epochDue := true,
                       log := [{ commit := 4, nsid := 5, floor := 0, items := [] }] }

theorem mediaUp (s : State) (d : Nat) (h : d < 4 ∧ s.mode.mode ≠ .reset ∧ s.mode.mode ≠ .holdup ∧ (s.die d).live = true ∧
    s.fab.waits = []) : MediaUp s d := h

theorem witness_Drains : MediaUp (wMedia wDrain) 3 ∧
    (let s := wMedia wDrain
     s.flushWaits = false ∧
     (wDrain.extents.find? (fun y => y.ref == wExtent.ref) = some wExtent ∧ wExtent.current = true ∧ wExtent.draining = false ∧
       (s.extentSlots 3 wExtent).length = 1 ∧ s.ownerRegion 3 wExtent.owner < 4 ∧
       (s.fn (33 + 3 * 4 + s.ownerRegion 3 wExtent.owner)).state ≠ .stopped) ∧
     ((journalFill chunkSize wDrain.mirroredLog).length = 1 ∧ wDrain.jnext % 4 = 0 ∧ wDrain.journal = [])) ∧
    (∃ r, r = (wMedia wDrain).ownerRegion 3 wExtent.owner ∧ NextPlace (wMedia wDrain) 3 r .host false ((wSuper r 1).pcaAt 0)) ∧
    NextPlace (wMedia wDrain) 3 0 .host false ((wSuper 0 1).pcaAt 0) :=
  ⟨mediaUp _ _ (by decide +kernel), by decide +kernel, ⟨_, rfl, wHostOf ((wMedia wDrain).ownerRegion 3 wExtent.owner),
      wSuper ((wMedia wDrain).ownerRegion 3 wExtent.owner) 1, 0, 1, by decide +kernel⟩, 1, wSuper 0 1, 0, 1, by decide +kernel⟩

theorem witness_Epochs : MediaUp (wMediaD wDrain) 3 ∧
    (let s := wMediaD wDrain
     (s.die 3).online = true ∧ (s.die 3).epochOpen = none ∧ (s.die 3).epochDue = true ∧
       ((s.die 3).appendSys s.geo (((s.die 3).epochNo + 1) % 4) .copy
         ((upto rootChunks).map (fun i => sysSlot 3 i (s.die 3).sysKey))).isSome = true) ∧
    (let e : Epoch := ⟨1, 6, 0, 0, 0, 0, {}, 0, []⟩
     let d := { wWork wClosed with epochOpen := some e, slots := [(wPca, some (wSlot true none))] }
     d.epochOpen = some e ∧ ∀ k, k ∈ d.slots → ∀ u, k.2 = some u → u.verified = true ∨ e.seqStart ≤ u.seq) := by
  refine ⟨mediaUp _ _ (by decide +kernel), by decide +kernel, rfl, fun k hk u hu => ?_⟩
  have e : k = (wPca, some (wSlot true none)) := by simpa using hk
  subst e
  have f : wSlot true none = u := by simpa using hu
  subst f
  exact Or.inl rfl

/-- The one chunk of superblock 0, which is `x`, is to go to stream `st`. -/
theorem oneChunk (g : Tab Region) (x : Super) (st : Stream) (m : Nat) (hm : MediaUp (wMediaD (wWorkIn g x)) 3)
    (h : x.region = 0 ∧ (wWorkIn g x).super 0 = some x ∧ (wWorkIn g x).validSlots x = [(wPca, wSlot true none)])
    (hn : NextPlace (wMediaD (wWorkIn g x)) 3 0 st false ((wSuper 0 m).pcaAt 0)) :
    OneChunk (wMediaD (wWorkIn g x)) 3 0 0 st wPca ((wSuper 0 m).pcaAt 0) (wSlot true none) :=
  ⟨hm, by decide, ⟨x, h.2.1, h.1, h.2.2⟩, false, hn⟩

theorem hostWhole (g : Tab Region) (x : Super) (hg : ((wWorkIn g x).region 0).host = some 1)
    (hc : ((wWorkIn g x).region 0).copy = some 2) : HostWhole (wMediaD (wWorkIn g x)) 3 0 := by
  intro k y hk hy
  have hk : ((wWorkIn g x).region 0).host = some k := hk
  rw [hg] at hk
  have e : 1 = k := Option.some.inj hk
  subst e
  have f : wSuper 0 1 = y := Option.some.inj hy
  subst f
  refine ⟨rfl, ?_⟩
  show ((wWorkIn g x).region 0).copy ≠ some 1
  rw [hc]
  decide

theorem witness_RegionWork :
    (let x := { wClosed with slc := true }
     let s := wMediaD (wWork x)
     OneChunk s 3 0 0 .copy wPca ((wSuper 0 2).pcaAt 0) (wSlot true none) ∧ HostWhole s 3 0 ∧ (s.die 3).slcOver 0 = true ∧
       (s.die 3).oldestSlc 0 = some 0 ∧ s.rankFree 3 0 5 = true) ∧
    (let s := wMediaD (wWorkIn (wRegs false { pool := 0xFFFFFFFF#32 }) wClosed)
     OneChunk s 3 0 0 .copy wPca ((wSuper 0 2).pcaAt 0) (wSlot true none) ∧ HostWhole s 3 0 ∧ (s.die 3).reclaimNext s.geo 0 = some 0 ∧ (s.die 3).poolHigh s.geo 0 = true ∧
       s.rankFree 3 0 (if (s.die 3).poolLow s.geo 0 then 3 else 6) = true) ∧
    (let s := wMediaD (wWork wClosed)
     OneChunk s 3 0 0 .cold wPca ((wSuper 0 3).pcaAt 0) (wSlot true none) ∧ ((s.die 3).region 0).levelling = true ∧
       (s.die 3).levelNext 0 = some 0 ∧ s.rankFree 3 0 7 = true) ∧
    (let s := wMediaD (wWork { wClosed with refresh := true })
     OneChunk s 3 0 0 .copy wPca ((wSuper 0 2).pcaAt 0) (wSlot true none) ∧ (s.die 3).refreshNext 0 = some 0 ∧
       s.rankFree 3 0 2 = true) ∧
    (let s := wMediaD (wWork { wClosed with abandoned := true })
     OneChunk s 3 0 0 .copy wPca ((wSuper 0 2).pcaAt 0) (wSlot true none) ∧ (s.die 3).rebuildNext 0 = some 0 ∧
       s.rankFree 3 0 1 = true) ∧
    (let x := { wClosed with purge := [9] }
     let s := wMediaD (wWork x)
     OneChunk s 3 0 0 .cold wPca ((wSuper 0 3).pcaAt 0) (wSlot true none) ∧ x.closed = true ∧ s.purgeNext 3 0 = [0] ∧
       s.rankFree 3 0 4 = true ∧ ∀ q, q < 4 → q ≠ 0 → s.purgeNext 3 q = []) := by
  have up : ∀ g x, MediaUp (wMediaD (wWorkIn g x)) 3 := fun g x => mediaUp _ _ ⟨by decide, show Mode.service ≠ .reset by decide, show Mode.service ≠ .holdup by decide, rfl, rfl⟩
  refine ⟨⟨oneChunk _ _ _ 2 (up _ _) (by decide +kernel) ⟨2, wSuper 0 2, 0, 1, by decide +kernel⟩, hostWhole _ _ rfl rfl, by decide +kernel⟩,
    ⟨oneChunk _ _ _ 2 (up _ _) (by decide +kernel) ⟨2, wSuper 0 2, 0, 1, by decide +kernel⟩, hostWhole _ _ rfl rfl, by decide +kernel⟩,
    ⟨oneChunk _ _ _ 3 (up _ _) (by decide +kernel) ⟨3, wSuper 0 3, 0, 1, by decide +kernel⟩, by decide +kernel⟩,
    ⟨oneChunk _ _ _ 2 (up _ _) (by decide +kernel) ⟨2, wSuper 0 2, 0, 1, by decide +kernel⟩, by decide +kernel⟩,
    ⟨oneChunk _ _ _ 2 (up _ _) (by decide +kernel) ⟨2, wSuper 0 2, 0, 1, by decide +kernel⟩, by decide +kernel⟩,
    ⟨oneChunk _ _ _ 3 (up _ _) (by decide +kernel) ⟨3, wSuper 0 3, 0, 1, by decide +kernel⟩, by decide +kernel⟩⟩

/-- Two objects whose runs stand at 0x80000000 and a staged value of 2^31 + 1 chunks: no run fits. -/
def wHigh (held : Bool) : State :=
  let c := wCmd 1 (.words []) []
  let v := { wInv 0x82000000#32 1 [] with staged := [Staged.upd (handleOf 0 3 0) 1 0 (2 ^ 31 * 65536 + 65536) 0],
                                          slots := if held then [(0, .busy (.fill (handleOf 0 3 0)) 0)] else [] }
  { wNirm v [c] { wDie with dir := [(0, { wEntry with length := 1, first := 2 ^ 31 })],
                            map := [(2 ^ 31, { pca := wPca, onMedia := true })] } with profiles := [wProfile] }

/-- Store die 3 before the sweep of the first 2^24 put serials, one chunk under part handle 0xF0000000. -/
def wSweep (t : Slot) : Die :=
  { wWork wClosed with serialNext := 0x0EFFFFFF, sweepTo := 0, slots := [(wPca, some t)], regions := wOpen,
                       originLog := [(0, [(0, handleOf 0 3 0, 1), (2 ^ 24, handleOf 0 3 0, 1)])] }

theorem witness_PatrolAndSweeps :
    (let s := wMediaD (wWorkIn (wRegs false {}) wClosed)
     MediaUp s 3 ∧ s.rankFree 3 wClosed.region 8 = true ∧ (s.die 3).super 0 = some wClosed ∧ (s.die 3).patrolNext wClosed.region = some 0 ∧
       (s.die 3).superSlots wClosed = [(wPca, wSlot true none)] ∧ (s.die 3).slot wPca = some (wSlot true none) ∧
       (s.die 3).lunFree wPca = true ∧ (s.die 3).erased (pcaChannel wPca) (pcaPos wPca) = false) ∧
    (wMediaD (wWork wClosed)).stagedRuns 3 = [] ∧
    (let s := wHigh false
     MediaUp s 3 ∧ (s.die 3).puts = [] ∧ chunksOf 1 = 1 ∧ s.stagedRuns 3 = [2 ^ 31 + 1] ∧ (s.die 3).runFits (2 ^ 31 + 1) = false ∧
       (s.heldRuns 3).contains (2 ^ 31) = false ∧ ((wHigh true).heldRuns 3).contains (2 ^ 31) = true) ∧
    (let t := { wSlot true none with handle := 0xF0000000#32 }
     let s := wMediaD (wSweep t)
     (s.die 3).sweepDue = true ∧ (s.die 3).sweepTodo = [(wPca, t)] ∧ (s.die 3).sweepable wPca = true ∧
       NextPlace s 3 (pcaChannel wPca / 16) .copy false ((wSuper 0 2).pcaAt 0)) ∧
    ((wSweep (wSlot true none)).sweepDue = true ∧ (wSweep (wSlot true none)).sweepTodo = []) ∧
    ({ wSweep (wSlot true none) with serialNext := 0x0EFFFFFE }.sweepDue = false) := by
  refine ⟨⟨mediaUp _ _ (by decide +kernel), by decide +kernel⟩, by decide +kernel,
    ⟨mediaUp _ _ (by decide +kernel), by decide +kernel⟩,
    ⟨by decide +kernel, by decide +kernel, by decide +kernel, 2, wSuper 0 2, 0, 1, by decide +kernel⟩, by decide +kernel,
    by decide +kernel⟩

/-! ### Functions and registers -/

/-- A package in `m` with function n as `f`. -/
def wFn (m : Mode) (n : Nat) (f : Fn) : State := { wServe with mode := { mode := m, fns := [(n, f)] } }

theorem witness_FunctionStops :
    ((wFn .service 50 {}).mode.mode ≠ .reset ∧ ((wFn .service 50 {}).fn 50).state = .running ∧ (wFn .service 50 {}).mode.mode.serving = true ∧
      (0xFFFFFFFE : W32).getLsbD 0 = false ∧ (0x00000001 : W32).getLsbD 0 = true) ∧
    ((wFn .service 0 { state := .stopped }).fn 0).state = .stopped ∧ ((wFn .service 50 { state := .stopping }).fn 50).state = .stopping ∧
    ((wFn .drain 33 { state := .starting }).fn 33).state = .starting ∧ (wFn .drain 33 { state := .starting }).mode.mode.serving = true ∧
    (wFn .mount 50 {}).mode.mode.serving = false ∧
    (wFn .service 50 { state := .stopping }).fnQuiet 50 = true ∧
    (∀ p, p ∈ fnArbs 48 → ((wFn .service 48 { state := .stopping }).arb p).granted = false) ∧
    (let s : State := { wFn .service 48 { state := .stopping } with arbs := [(wArbP, { granted := true })] }
     s.fnQuiet 48 = true ∧ wArbP ∈ fnArbs 48 ∧ (s.arb wArbP).granted = true) ∧
    (let s : State := { wRun [wFac 0x01 0 0 0 0 0 [0xAA#8] []] wNone with mode := { mode := .service, fns := [(48, { state := .stopping, stopAt := 10 })] } }
     s.fnQuiet 48 = false) := by decide +kernel

theorem witness_FunctionRestarts : ((wFn .service 50 {}).fn 50).state ≠ .starting ∧
    (let s := wFn .reprogram 0 { state := .starting }
     (s.fn 0).state = .starting ∧ (s.fn 0).stopPending = false ∧ ∀ p, p ∈ fnArbs 0 → (s.arb p).granted = false) ∧
    (let s : State := { wFn .reprogram 0 { state := .starting } with arbs := [(placeOf 4 0 0 0x0C 31, { granted := true })] }
     placeOf 4 0 0 0x0C 31 ∈ fnArbs 0 ∧ (s.arb (placeOf 4 0 0 0x0C 31)).granted = true) ∧
    ((wFn .service 32 { state := .starting }).fn 32).state = .starting ∧ ((wFn .service 48 { state := .starting }).fn 48).retrain = false ∧
    (let s : State := { wFn .service 49 { state := .starting } with
       eng := { hstaged := [{ slot := 1, entry := {}, image := none }] } }
     (s.fn 49).state = .starting ∧ s.handlersFree = true ∧ (s.restartHandlers (s.fn 49).startAt).isSome = true) ∧
    ((wFn .service 50 { state := .starting }).fn 50).stopPending = false ∧
    (let s := wFn .service 50 { state := .starting, stopPending := true }
     (s.fn 50).state = .starting ∧ (s.fn 50).stopPending = true ∧ s.fnMayRun 50 = true) := by decide +kernel

/-- A package in SERVICE with program slot 63 of store die 3 as `p`, triggered. -/
def wProg (p : Option Prog) (v : Option Inv) : State :=
  { wServe with eng := { progs := [(progKey 4 63, p)], trigs := [(progKey 4 63, { period := 1 })], mgmt := [(4, v)] } }

theorem witness_TriggeredPrograms : (wServe.trig 4 63).period = 0 ∧
    (let s := wProg none none
     (s.trig 4 63).period ≠ 0 ∧ s.mgmtUp 4 = true ∧ s.mode.mode ≠ .holdup ∧ s.prog 4 63 = none) ∧
    (let p : Prog := { words := [0x80000000#32], budget := 1, imageId := 1 }
     (wProg (some p) none).prog 4 63 = some p ∧ (wProg (some p) none).inv (.mgmt 4) = none ∧
       (let v := { wInv 0#32 0 [] with work := .program 63 none }
        (wProg (some p) (some v)).prog 4 63 = some p ∧ (wProg (some p) (some v)).progRuns 4 63 = true)) := by decide +kernel

theorem witness_SingleWrites : wServe.mode.mode ≠ .reset ∧ wServe.macPresent 127 = false ∧ wServe.macPresent 124 = true ∧
    ((wServe.mac 124).tsq = [] ∧ ((wMac { tsq := [5, 6] }).mac 124).tsq = 5 :: [6]) ∧
    (field 0x0000EA60 0 16 = 60000 ∧ field 0xFFFF0000 0 16 = 0 ∧ 60000 < field 0x0000EA61 0 16) ∧
    (Wf.place ((0x00000001 : W32).toNat % 0x100000) = false ∧
      (Wf.place ((0 : W32).toNat % 0x100000) = true ∧ wServe.regValue 0 65535 = none ∧ State.reset.regValue 0 0 ≠ none)) := by
  decide +kernel

theorem witness_CounterReads : wServe.mode.mode ≠ .reset := by decide

theorem witness_OtpConfigWrites : wServe.mode.mode ≠ .reset ∧
    (field 0 0 2 = wServe.otp.masterPref ∧ (0 : W32).getLsbD 2 = wServe.otp.importDis) ∧
    (field 3 0 2 ≠ wServe.otp.masterPref ∧ (3 : W32).getLsbD 2 = wServe.otp.importDis ∧ wServe.otp.leftMasterPref ≠ 0) ∧
    ((4 : W32).getLsbD 2 = true ∧ field 4 0 2 = wServe.otp.masterPref ∧ wServe.otp.importDis = false ∧ wServe.otp.leftImportDis ≠ 0) ∧
    (field 7 0 2 ≠ wServe.otp.masterPref ∧ (7 : W32).getLsbD 2 = true) ∧
    (let s : State := { wServe with otp := { importDis := true, leftImportDis := 0, leftMasterPref := 0 } }
     (field 3 0 2 ≠ s.otp.masterPref ∧ s.otp.leftMasterPref = 0) ∧ (0 : W32).getLsbD 2 ≠ s.otp.importDis ∧
       s.otp.leftImportDis = 0) := by decide

/-! ### The fabric -/

/-- A package in SERVICE with that fabric block. -/
def wFab (f : Fab) : State := { wServe with fab := f }

/-- A message of a type from unique ID 0xEE. -/
def wRfp (type : Nat) (body : Octets) : Rfp :=
  { type := type, mac := 124, eth := 2, ip := 0, dst := 0, srcUid := 0xEE, srcAddr := 0, seq := 1, body := body }

/-- The messages waiting: one of a type. -/
def wIn (type : Nat) (body : Octets) (f : Fab) : State := wFab { f with inbox := [wRfp type body] }

theorem wIn_arrived (type : Nat) (body : Octets) (f : Fab) : Arrived (wIn type body f) type (wRfp type body) [] := ⟨rfl, rfl⟩

/-- With an empty link-state database the package reaches itself alone and coordinates itself. -/
theorem reachable_alone (s : State) (h : s.fab.lsdb = []) : s.reachable = [Config.uid] := by
  simp [State.reachable, State.nodes, State.spread, h]

theorem coordinator_alone (s : State) (h : s.fab.lsdb = []) : s.coordinator = Config.uid := by
  simp [State.coordinator, reachable_alone s h]

theorem beNat_beOctets8 (n : Nat) (h : n < 2 ^ 64) : beNat (beOctets 8 n) = n := by
  simp [beNat, beOctets, List.range, List.range.loop, Nat.shiftRight_eq_div_pow]
  omega

theorem witness_NeighboursAndLsas :
    (let c : MacCfg := { fabMac := 0x5F#32 }
     let s : State := { wServe with net := { macs := [(124, { link := true, cfg := c, live := c })] } }
     s.fabricMac 124 = true ∧ wServe.fabricMac 124 = false) ∧
    (let n : Nbr := { uid := 0xEE, mac := 124, eth := 2, ip := 0, heard := true, hearsUs := true, isUp := true }
     (wFab {}).nbr? 0xEE 124 = none ∧ (wFab { nbrs := [n] }).nbr? 0xEE 124 = some n ∧ n.isUp = true) ∧
    (wServe.mode.mode.trains = true ∧ State.reset.mode.mode.trains = false) ∧
    Arrived (wIn 1 [124#8, 0#8, 0#8] {}) 1 (wRfp 1 [124#8, 0#8, 0#8]) [] ∧
    Arrived (wIn 2 (zeros 21) {}) 2 (wRfp 2 (zeros 21)) [] ∧
    (∀ k, (wIn 2 (zeros 21) {}).fab.lsdb.find? (fun k => k.origin == (lsaOfBody (zeros 21)).origin) = some k →
      k.seq < (lsaOfBody (zeros 21)).seq) ∧
    (let l := lsaOfBody (zeros 21)
     (wIn 2 (zeros 21) { lsdb := [l] }).fab.lsdb.find? (fun k => k.origin == l.origin) = some l ∧ l.seq ≤ l.seq) :=
  ⟨by decide, by decide, by decide, wIn_arrived _ _ _, wIn_arrived _ _ _, fun _ h => (nomatch h), by decide +kernel⟩

/-- A generation of one member, ourselves. -/
def wGen (num : Nat) : Gen := { num := num, repl := 1, members := [⟨Config.uid, 5, 0xFFFF, 7⟩] }

theorem nextGen_formed (s : State) (h : s.fab.lsdb = []) (hg : s.lastGen = none) (hr : s.fab.removed = [])
    (hf : s.fab.formCount = some 1) :
    s.nextGen = some { num := 1, repl := field s.fab.ctrlLive 0 2, members := s.assignAddrs [Config.uid] } := by
  simp [State.nextGen, reachable_alone s h, hg, hr, hf]

theorem witness_ProposeStartAndResend :
    (State.reset.nextGen = none ∧ State.reset.fab.proposal = none) ∧
    ((∃ g, (wFab { formCount := some 1 }).nextGen = some g) ∧ (wFab { formCount := some 1 }).fab.proposal = none ∧
      (wFab { formCount := some 1 }).coordinator = Config.uid ∧ (wFab { formCount := some 1 }).mode.mode.trains = true) ∧
    (let p : Proposal := { gen := wGen 2, votes := [] }
     let s := wFab { proposal := some p, formCount := some 1 }
     s.fab.proposal = some p ∧ p.committed = false ∧ s.coordinator = Config.uid ∧ s.mode.mode.trains = true ∧
       ∃ g, s.nextGen = some g ∧ p.gen ≠ g) :=
  ⟨⟨rfl, rfl⟩, ⟨⟨_, nextGen_formed _ rfl rfl rfl rfl⟩, rfl, coordinator_alone _ rfl, rfl⟩, rfl, rfl, coordinator_alone _ rfl, rfl,
    _, nextGen_formed _ rfl rfl rfl rfl, fun h => absurd (congrArg Gen.num h) (by decide)⟩

/-- Body of a PROPOSE or COMMIT of generation 9 by `coord`, with member `uid` when it names one. -/
def wGenBody (coord : Nat) (uid : List Nat) : Octets :=
  zeros 8 ++ beOctets 8 9 ++ beOctets 8 coord ++ beOctets 1 1 ++ beOctets 2 uid.length ++
    uid.flatMap (fun u => beOctets 8 u ++ beOctets 8 0)

/-- Two packages, ourselves and 0xEE, that list each other: 0xEE coordinates where its unique ID is the lower. -/
theorem witness_Propose : (0xEE#64 < Config.uid → 0xEE#64 ≠ Config.uid →
    let l : Lsa := ⟨0xEE, 1, 0, 0, [(Config.uid, 0)]⟩
    let n : Nbr := { uid := 0xEE, mac := 124, eth := 2, ip := 0, isUp := true }
    let s := wIn 3 (wGenBody 0xEE []) { lsdb := [l], nbrs := [n] }
    s.coordinator = 0xEE#64 ∧ s.lastGen = none ∧ (s.fabRec.getD emptyRec).voteGen < (genOfBody (wGenBody 0xEE [])).num ∧ s.fab.pends = []) ∧
    ({ clock := { cycles := 2000000 } } : State).dbStable = true ∧ (wIn 3 (wGenBody 0xEE []) {}).dbStable = false ∧
    BitVec.ofNat 64 (beAt (wGenBody 0xEE []) 16 8) = 0xEE#64 ∧ (wRfp 3 []).srcUid = 0xEE#64 := by
  refine ⟨fun hl hne => ⟨?_, rfl, by decide +kernel, rfl⟩, by decide, by decide, by decide +kernel, rfl⟩
  have hne' : Config.uid ≠ 0xEE#64 := fun h => hne h.symm
  simp [State.coordinator, State.reachable, State.nodes, State.spread, State.linked, State.lists, State.ownLinks, wIn, wFab, hne, hl]

theorem witness_Vote :
    (let p : Proposal := { gen := wGen 9, votes := [] }
     let body := zeros 8 ++ beOctets 8 9 ++ beOctets 8 Config.uid.toNat
     let s := wIn 4 body { proposal := some p, gen := some (wGen 8) }
     Arrived s 4 (wRfp 4 body) [] ∧ s.fab.proposal = some p ∧ s.lastGen = some (wGen 8) ∧ beAt body 8 8 = p.gen.num ∧
       beAt body 16 8 = Config.uid.toNat ∧ ¬ (wRfp 4 body).srcUid ∈ p.votes) ∧
    0xEE#64 ∈ ({ gen := wGen 9, votes := [0xEE] } : Proposal).votes :=
  ⟨⟨⟨rfl, rfl⟩, rfl, rfl, by decide +kernel, beNat_beOctets8 _ Config.uid.isLt, by decide⟩, by decide⟩

theorem witness_Commit :
    (let body := wGenBody 0xEE [Config.uid.toNat]
     Arrived (wIn 5 body {}) 5 (wRfp 5 body) [] ∧ (wIn 5 body {}).lastGen = none ∧ (genOfBody body).num ≠ 0 ∧
       ∃ k, k ∈ (genOfBody body).members ∧ k.uid = Config.uid) ∧
    (let body := wGenBody 0xEE []
     ∀ k, k ∈ (genOfBody body).members → k.uid ≠ Config.uid) := by
  refine ⟨⟨⟨rfl, rfl⟩, rfl, by decide +kernel, _, List.mem_cons_self, ?_⟩, fun k h => nomatch h⟩
  show BitVec.ofNat 64 (beNat (beOctets 8 Config.uid.toNat)) = Config.uid
  rw [beNat_beOctets8 _ Config.uid.isLt]
  exact BitVec.eq_of_toNat_eq (Nat.mod_eq_of_lt Config.uid.isLt)

theorem witness_RecordWritten : State.reset.fab.pends = [] ∧
    (wFab { pends := [.vote 9 Config.uid] }).fab.pends = .vote 9 Config.uid :: [] ∧
    (wFab { pends := [.adopt (wGen 9)] }).fab.pends = .adopt (wGen 9) :: [] ∧
    (wGen 9).members.find? (fun k => k.uid == Config.uid) = some ⟨Config.uid, 5, 0xFFFF, 7⟩ :=
  ⟨rfl, rfl, rfl, by simp [wGen]⟩

/-- A FWD of forwarder's commit number 3 with TOTAL `total` and `n` octets. -/
def wFwdBody (total n : Nat) : Octets := beOctets 8 3 ++ zeros 6 ++ beOctets 4 total ++ zeros n

theorem witness_ForwardingMessages :
    (let s : State := { wIn 6 (wFwdBody 8 8) {} with wot := { resumed := true } }
     Arrived s 6 (wRfp 6 (wFwdBody 8 8)) [] ∧
     s.fab.fwdIn.find? (fun f => f.1 == 0xEE#64 && f.2.1 == beAt (wFwdBody 8 8) 0 8) = none ∧
       beAt (wFwdBody 8 8) 14 4 ≤ ((wFwdBody 8 8).drop 18).length ∧ s.wot.resumed = true ∧ s.mode.mode.serving = true ∧
       s.wot.outstanding < 1048576 ∧ s.reqHolds = false) ∧
    ((wFwdBody 9 8).drop 18).length < beAt (wFwdBody 9 8) 14 4 ∧ (wIn 6 (wFwdBody 8 8) {}).wot.resumed = false ∧
    (let f : Fwd := { commit := 9, uid := 0xEE }
     let body := beOctets 8 9 ++ zeros 4 ++ [1#8]
     let c := wFac 0x01 0 0 0 0 0 [0xAA#8] []
     let s : State := { wIn 7 body { fwds := [f] } with eng := { cmds := [c] } }
     s.fab.fwds.find? (fun f => f.commit == beAt body 0 8 && f.uid == 0xEE#64 && !f.ended) = some f ∧ beAt body 12 1 ≠ 0 ∧
       s.cmd? (beAt body 0 8) = some c ∧ clsWrites c.entry.cls = false ∧ beAt (zeros 13) 12 1 = 0) ∧
    (let s := wIn 11 (zeros 9) {}
     beAt (zeros 9) 0 1 = 0 ∧ s.doneCommit 0xEE (beAt (zeros 9) 1 8) = none ∧ beAt (1#8 :: zeros 8) 0 1 ≠ 0) ∧
    (let s := wIn 11 (zeros 9) { fwdDone := [(0xEE, 0, 8)], fwds := [{ commit := 8, uid := 0xEF }] }
     s.doneCommit 0xEE (beAt (zeros 9) 1 8) = some 8 ∧ s.writeFlushed 8 = false) :=
  ⟨⟨⟨rfl, rfl⟩, by decide +kernel⟩, by decide +kernel, by decide +kernel, by decide +kernel, by decide +kernel⟩

/-- A REPL record of generation `g` and commit number 3 with N 1. -/
def wReplBody (g : Nat) : Octets := beOctets 8 g ++ beOctets 8 3 ++ zeros 2 ++ beOctets 2 1 ++ zeros 6

theorem witness_ReplicationMessages :
    (Arrived (wIn 8 (wReplBody 7) {}) 8 (wRfp 8 (wReplBody 7)) [] ∧ beAt (wReplBody 7) 18 2 ≠ 0 ∧ beAt (wReplBody 7) 18 2 ≠ 0xFFFF ∧
      beAt (wReplBody 7) 0 8 ≠ (wIn 8 (wReplBody 7) {}).genNo ∧ beAt (wReplBody 0) 0 8 = (wIn 8 (wReplBody 0) {}).genNo) ∧
    (let w : WriteWait := { commit := 9, bucket := 0, waiting := [0xEE, 0xEF], staged := [], base := none, vals := [], segs := [], erase := [] }
     let body := zeros 8 ++ beOctets 8 9 ++ [0#8]
     let s := wIn 9 body { waits := [w] }
     s.fab.waits = [w] ∧ w.commit = beAt body 8 8 ∧ 0xEE#64 ∈ w.waiting ∧ beAt body 16 1 ≠ 1 ∧
       w.waiting.filter (fun u => u != 0xEE#64) ≠ []) ∧
    (let w : WriteWait := { commit := 9, bucket := 0, waiting := [0xEE], staged := [], base := none, vals := [], segs := [], erase := [] }
     let body := zeros 8 ++ beOctets 8 9 ++ [1#8]
     let c := wFac 0x03 1 0 0 0 0 [0xAA#8] []
     let s : State := { wIn 9 body { waits := [w] } with eng := { cmds := [c] } }
     0xEE#64 ∈ w.waiting ∧ beAt body 16 1 = 1 ∧ s.cmd? w.commit = some c ∧ ¬ 0xED#64 ∈ w.waiting) ∧
    (let body := zeros 2 ++ [0xFF#8]
     let s : State := { wIn 10 body { fillFrom := [0xEE] } with wot := { resumed := true } }
     beAt body 2 1 = 0xFF ∧ (∀ d, d < 4 → (s.die d).dir = []) ∧ s.wot.resumed = true ∧ s.reqHolds = false ∧
       s.fab.fillFrom = [0xEE] ∧ beAt (zeros 2 ++ [0xFE#8]) 2 1 = 0xFE) ∧
    (¬ 65535 ∈ wServe.fab.unresolved ∧ 65535 ∈ (wFab { unresolved := [65535] }).fab.unresolved ∧
      (wFab { unresolved := [65535] }).fab.prepared = []) ∧
    (let p : Peer := { uid := 0xEE, unacked := [(4, 11, [])], txSeq := 5 }
     let body := zeros 2 ++ beOctets 6 4
     let s := wIn 12 body { peers := [p] }
     (s.peer 0xEE).unacked = [(4, 11, [])] ∧ beAt body 2 6 = 4 ∧ (wServe.peer 0xEE).unacked = []) ∧
    beAt (zeros 20) 18 2 = 0 :=
  ⟨⟨⟨rfl, rfl⟩, by decide +kernel⟩, by decide +kernel, by decide +kernel, by decide +kernel, by decide +kernel, by decide +kernel,
    by decide +kernel⟩

/-- Every region of a package is served where no media position is offline. -/
theorem witness_ReplServes : ∃ s : State, Arrived s 8 (wRfp 8 (wReplBody 0)) [] ∧ s.ownServe = 0xFFFF#16 ∧
    beAt (wReplBody 0) 0 8 = s.genNo := ⟨wIn 8 (wReplBody 0) {}, ⟨rfl, rfl⟩, by decide +kernel, by decide +kernel⟩

/-- With its four store dies offline it serves none. -/
theorem witness_ReplNotServing : ∃ s : State, Arrived s 8 (wRfp 8 (wReplBody 0)) [] ∧ s.ownServe = 0 ∧
    beAt (wReplBody 0) 0 8 = s.genNo :=
  ⟨{ wIn 8 (wReplBody 0) {} with dies := (upto 4).map (fun d => (d, { wDie with online := false })) }, ⟨rfl, rfl⟩,
    by decide +kernel, by decide +kernel⟩

/-! ### Transom, the test access port, the time base, OTP -/

/-- A Transom request with tag 7 of a CODE and body on connection 65,535. -/
def wReq3 (code : Nat) (body : Octets) : TReq :=
  { commit := 9, conn := 65535, gen := 0, tag := 7, msg := beOctets 4 (16 + body.length) ++ beOctets 2 7 ++ beOctets 2 code ++ zeros 8 ++ body }

/-- A package in `m` with that request at the front of its management engine. -/
def wAsk (m : Mode) (code : Nat) (body : Octets) : State :=
  { wWot m { wConn with mgmt := true } [] with eng := { treqs := [wReq3 code body] } }

theorem wReq3_code (code : Nat) (body : Octets) (h : code < 65536) : (wReq3 code body).code = code := by
  show beNat (beOctets 2 code) = code
  simp [beNat, beOctets, List.range, List.range.loop, Nat.shiftRight_eq_div_pow]
  omega

theorem wAsk_asked (m : Mode) (code : Nat) (body : Octets) (h : code < 65536) (hm : m ≠ .reset) :
    Asked (wAsk m code body) code (wReq3 code body) [] := ⟨rfl, wReq3_code code body h, rfl, hm⟩

/-- Every Transom code can stand at the front of the queue, its connection standing or ended. -/
theorem witness_Transom : (∀ c, c < 65536 → ∀ b, Asked (wAsk .service c b) c (wReq3 c b) [] ∧ (wReq3 c b).body = b) ∧
    Standing (wAsk .service 1 []) (wReq3 1 []) ∧ ¬ Standing State.reset { wReq3 1 [] with gen := 1 } :=
  ⟨fun c h b => ⟨wAsk_asked _ c b h (by decide), rfl⟩, ⟨rfl, Or.inl rfl⟩, fun h => absurd h.1 (by decide)⟩

theorem witness_TransomRowsAndErrors : State.reset.eng.treqs = [] ∧ State.reset.mode.mode = .reset ∧
    (wReq3 0x0010 []).code ≠ 0x0011 ∧ ¬ 0x0005 ∈ transomCodes ∧ 0x0031 ∈ transomCodes ∧ (wReq3 0x0012 []).body.length ≠ 8 ∧
    (wReq3 0x0012 (zeros 9)).body.length ≠ 8 := by decide

/-- The same in SERVICE, mounted, its four store dies in service. -/
def wAskUp (code : Nat) (body : Octets) : State :=
  { wAsk .service code body with mode := { mode := .service, mounted := true }, dies := wServe.dies }

theorem wAskUp_asked (code : Nat) (body : Octets) (h : code < 65536) : Asked (wAskUp code body) code (wReq3 code body) [] :=
  ⟨rfl, wReq3_code code body h, rfl, nofun⟩

theorem witness_TransomRegistersAndTables :
    (let b := beOctets 2 1 ++ zeros 14
     beAt b 0 2 = 1 ∧ b.length = 16) ∧
    (let b := beOctets 2 1 ++ zeros 18
     beAt b 0 2 = 1 ∧ b.length = 20) ∧
    (let b := zeros 4 ++ [1#8, 0#8] ++ beOctets 2 1 ++ beOctets 4 4095 ++ zeros 4
     b.length = 16 ∧ beAt b 0 4 = 0 ∧ beAt b 4 1 = 1 ∧ beAt b 6 2 = 1 ∧ beAt b 8 4 = 4095) ∧
    (let b := zeros 4 ++ [1#8, 0#8] ++ beOctets 2 1 ++ beOctets 4 5 ++ zeros 4 ++ beOctets 4 2
     let s : State := { wAskUp 4 b with dies := [(3, wObj)] }
     let c := { wFac 0x03 1 0 0 0 0 [0xAA#8] [] with commit := 8 }
     let held : State := { wAskUp 4 b with eng := { treqs := [wReq3 4 b], cmds := [c] } }
     b.length = 20 ∧ beAt b 4 1 = 1 ∧ beAt b 6 2 = 1 ∧ beAt b 8 4 = 5 ∧ s.nsHolds 5 = true ∧
       field (w32 (beAt b 16 4) &&& 0x1FFFFF#32) 1 19 ≠ field (s.nsEntry 5) 1 19 ∧
       s.nsWaits (wReq3 4 b).commit 1 5 (b.drop 16) = false ∧ s.tablesWait = false ∧
       (wAskUp 4 b).nsHolds 5 = false ∧ (wAskUp 4 b).nsWaits (wReq3 4 b).commit 1 5 (b.drop 16) = false ∧
       held.nsWaits (wReq3 4 b).commit 1 c.nsid (b.drop 16) = true ∧ (wAsk .service 4 b).tablesWait = true) := by decide +kernel

/-- An object of one word, DONE, of KIND `kind`: BUDGET 9, IMAGE_ID 0x00010001. -/
def wObject (kind crc : Nat) : Octets :=
  beOctets 4 0x4E49524D ++ [1#8] ++ beOctets 1 kind ++ zeros 2 ++ beOctets 2 9 ++ beOctets 2 1 ++ beOctets 4 0x00010001 ++
  beOctets 4 crc ++ zeros 12 ++ leOctets 4 0x80000000

def wObject0 : Octets := wObject 0 3295473496
def wObject1 : Octets := wObject 1 3167457237

theorem wObjects_ok : objReason wObject0 0 = 0 ∧ objReason wObject1 1 = 0 ∧ objReason wObject0 1 = 2 ∧ objReason (wObject 0 0) 0 = 1 := by
  decide +kernel

theorem witness_TransomHandlersAndPrograms :
    (let b := [0xFF#8, 0#8] ++ zeros 6 ++ wObject0
     let s := wAskUp 0x0010 b
     8 ≤ b.length ∧ (b.getD 1 0).getLsbD 0 = false ∧ b.drop 8 = wObject0 ∧ (s.fn 49).state = .running ∧ s.eng.cmds = [] ∧
       (s.hslot (beAt b 0 1)).older = none ∧ s.eng.hstaged = [] ∧ s.tablesWait = false ∧
       (s.placeImage 1 (beAt b 0 1) (wReq3 0x0010 b).commit (objWords (b.drop 8))).isSome = true ∧
       (({ s with mode := { mode := .service, fns := [(49, { state := .stopped })] } } : State).fn 49).state ≠ .running) ∧
    (let b := [0xFF#8] ++ zeros 7
     let s := wAskUp 0x0011 b
     b.length = 8 ∧ (s.fn 49).state = .running ∧ (s.hslot (beAt b 0 1)).older = none ∧ s.tablesWait = false ∧ s.eng.cmds = []) ∧
    (let b := [4#8, 63#8] ++ zeros 6 ++ wObject1
     let s := wAskUp 0x0013 b
     8 ≤ b.length ∧ b.drop 8 = wObject1 ∧ beAt b 0 1 < 5 ∧ 32 ≤ beAt b 1 1 ∧ beAt b 1 1 < 64 ∧
       s.progRuns (beAt b 0 1) (beAt b 1 1) = false ∧ s.tablesWait = false ∧
       (s.placeImage 3 (progKey (beAt b 0 1) (beAt b 1 1)) (wReq3 0x0013 b).commit (objWords (b.drop 8))).isSome = true ∧
       (let v := { wInv 0#32 0 [] with work := .program 63 none }
        ({ s with eng := { s.eng with mgmt := [(4, some v)] } } : State).progRuns 4 63 = true)) ∧
    (let b := [4#8, 63#8] ++ zeros 14
     let p : Prog := { words := [0x80000000#32], budget := 1, imageId := 1 }
     let s : State := { wAsk .service 0x0014 b with dies := wServe.dies, eng := { treqs := [wReq3 0x0014 b], progs := [(progKey 4 63, some p)] } }
     b.length = 16 ∧ beAt b 0 1 < 5 ∧ 32 ≤ beAt b 1 1 ∧ beAt b 1 1 < 64 ∧ s.prog (beAt b 0 1) (beAt b 1 1) = some p ∧
       s.mgmtUp (beAt b 0 1) = true ∧ s.inv (.mgmt (beAt b 0 1)) = none ∧
       (wAsk .service 0x0014 b).prog 4 63 = none ∧ 64 ≤ beAt ([0#8, 64#8] ++ zeros 14) 1 1) := by decide +kernel

/-- A MODESET body: MODE and CONFIRM. -/
def wModeset (mode confirm : Nat) : Octets := beOctets 1 mode ++ zeros 7 ++ beOctets 8 confirm

theorem wModeset_confirm (mode : Nat) : beAt (wModeset mode Config.uid.toNat) 8 8 = Config.uid.toNat :=
  beNat_beOctets8 _ Config.uid.isLt

theorem witness_ModesetRequests : (∀ n c, (wModeset n c).length = 16) ∧
    (modesetMode (wReq3 0x0020 (wModeset 0 Config.uid.toNat)) = 0 ∧
      beAt (wReq3 0x0020 (wModeset 0 Config.uid.toNat)).body 8 8 = Config.uid.toNat) ∧
    (modesetMode (wReq3 0x0020 (wModeset 5 0)) = 5 ∧ beAt (wReq3 0x0020 (wModeset 5 0)).body 8 8 = 0 ∧
      (wAsk .drain 0x0020 (wModeset 5 0)).mode.mode = .drain ∧ beAt (wReq3 0x0020 (wModeset 5 1)).body 8 8 ≠ 0 ∧
      (wAsk .service 0x0020 (wModeset 5 0)).mode.mode ≠ .drain ∧ modesetMode (wReq3 0x0020 (wModeset 1 0)) ≠ 5) ∧
    (modesetMode (wReq3 0x0020 (wModeset 7 0)) = 7 ∧ (wAsk .degraded 0x0020 (wModeset 7 0)).mode.mode = .degraded ∧
      beAt (wReq3 0x0020 (wModeset 7 0)).body 8 8 = 0 ∧ beAt (wReq3 0x0020 (wModeset 7 1)).body 8 8 ≠ 0 ∧
      (wAsk .reprogram 0x0020 (wModeset 7 0)).mode.mode ≠ .service) ∧
    (modesetMode (wReq3 0x0020 (wModeset 9 Config.uid.toNat)) = 9 ∧ (wAsk .drain 0x0020 (wModeset 9 0)).mode.mode = .drain ∧
      ({ wAsk .drain 0x0020 (wModeset 9 Config.uid.toNat) with wot := {} } : State).wot.conns = []) ∧
    (let s : State := { wAsk .drain 0x0020 (wModeset 9 Config.uid.toNat) with
       wot := {}, eng := { treqs := [wReq3 0x0020 (wModeset 9 Config.uid.toNat)], cmds := [wFac 0x01 0 0 0 0 0 [0xAA#8] []] } }
     s.wot.conns = [] ∧ s.eng.cmds ≠ []) ∧
    (let s : State := { wAsk .drain 0x0020 (wModeset 9 Config.uid.toNat) with wot := { conns := [(65535, wConn)] } }
     ∃ e, e ∈ s.wot.conns ∧ e.2.mgmt = false ∧ e.2.state = .open) ∧
    (∀ n, n < 2 → n ≠ Config.uid.toNat → beAt (wReq3 0x0020 (wModeset 9 n)).body 8 8 ≠ Config.uid.toNat) ∧
    (∃ n, n < 2 ∧ n ≠ Config.uid.toNat) :=
  ⟨fun _ _ => rfl, ⟨by decide +kernel, wModeset_confirm 0⟩, by decide +kernel, by decide +kernel, ⟨by decide +kernel, rfl, rfl⟩,
    ⟨rfl, nofun⟩, ⟨(65535, wConn), List.mem_cons_self, rfl, rfl⟩,
    fun n hn h => by
      have e : beAt (wReq3 0x0020 (wModeset 9 n)).body 8 8 = n := beNat_beOctets8 n (by omega)
      rwa [e],
    if h : Config.uid.toNat = 0 then ⟨1, by decide, by omega⟩ else ⟨0, by decide, fun k => h k.symm⟩⟩

theorem witness_TransomSettings :
    (let b := beOctets 1 1 ++ zeros 7 ++ beOctets 8 (2 ^ 64 - 1)
     let s := wAsk .service 0x0021 b
     8 ≤ b.length ∧ beAt b 0 1 = 1 ∧ b.length = 16 ∧ s.otp.fabDom.toNat ≠ beNat (b.drop 8) ∧ s.otp.leftFabDom ≠ 0 ∧
       ({ s with otp := { leftFabDom := 0 } } : State).otp.leftFabDom = 0) ∧
    (let b := beOctets 1 1 ++ zeros 15
     (wAsk .service 0x0021 b).otp.fabDom.toNat = beNat (b.drop 8)) ∧
    (let b := beOctets 1 2 ++ zeros 7 ++ beOctets 32 (2 ^ 256 - 1)
     let k := beOctets 1 3 ++ zeros 7 ++ beOctets 32 (2 ^ 256 - 1)
     let s := wAsk .service 0x0021 b
     beAt b 0 1 = 2 ∧ b.length = 40 ∧ s.otp.rootMgmt.toNat ≠ beNat (b.drop 8) ∧ s.otp.leftRootMgmt ≠ 0 ∧
       beAt k 0 1 = 3 ∧ k.length = 40 ∧
       ({ s with otp := { mediaRoot := some 0 } } : State).otp.mediaKey.toNat ≠ beNat (k.drop 8) ∧ s.otp.leftMediaRoot ≠ 0) ∧
    (4 < beAt (5#8 :: zeros 7) 0 1 ∧ beAt (0#8 :: zeros 7) 0 1 < 1 ∧ (1#8 :: zeros 7).length ≠ 16) ∧
    (1024 ≤ beAt (beOctets 2 1024 ++ zeros 6) 0 2 ∧ beAt (beOctets 2 1023 ++ zeros 6) 0 2 < 1024) ∧
    (let b := zeros 8
     let c := { wFac 0x01 0 0 0 0 0 [0xAA#8] [] with commit := 8 }
     let s : State := { wAsk .service 0x0023 b with eng := { treqs := [wReq3 0x0023 b], cmds := [c] } }
     c ∈ s.eng.cmds ∧ c.commit < (wReq3 0x0023 b).commit ∧ c.open_ = true ∧ s.nsOfKey (nsKeyslot (s.nsEntry c.nsid)) c.nsid = true) ∧
    (let s : State := { wAsk .service 0x0023 (zeros 8) with dies := wServe.dies }
     s.eng.cmds = [] ∧ (∀ d, d < 4 → (s.die d).dir = [] ∧ (s.die d).puts = []) ∧ (s.die 3).live = true) := by decide +kernel

theorem witness_TransomLeaseAndFabric :
    (4 ≤ beAt (4#8 :: zeros 7) 0 1 ∧ beAt (0xFE#8 :: zeros 7) 0 1 ≤ 0xFE ∧ beAt (0xFF#8 :: zeros 7) 0 1 = 0xFF ∧
      beAt (3#8 :: zeros 7) 0 1 < 4) ∧
    (let s : State := { wAsk .service 0x0022 (zeros 8) with lease := { state := .held, holder := 1 } }
     s.lease.state = .held ∧ s.lease.refuse = none ∧
       ({ s with lease := { s.lease with refuse := some 0 } } : State).lease.refuse ≠ none) ∧
    ({ wReq3 0x0022 (zeros 8) with started := true }.started = true ∧ { wReq3 0x0022 (zeros 8) with started := true }.code = 0x0022) ∧
    (beAt (beOctets 2 4096 ++ zeros 6) 0 2 ≤ 4096 ∧ 1 ≤ beAt (beOctets 2 1 ++ zeros 6) 0 2 ∧ 4096 < beAt (beOctets 2 4097 ++ zeros 6) 0 2 ∧
      beAt (zeros 8) 0 2 = 0) ∧
    (wServe.fab.standalone = false ∧ (wFab { standalone := true }).fab.standalone = true) := by decide +kernel

theorem witness_TransomGenerations : wServe.lastGen = none ∧ (wFab { gen := some (wGen 3) }).lastGen = some (wGen 3) ∧
    (let m : Member := ⟨Config.uid, 5, 0xFFFF, 7⟩
     m ∈ (wGen 3).members ∧ m.uid.toNat = beAt (beOctets 8 Config.uid.toNat) 0 8) :=
  ⟨rfl, rfl, List.mem_cons_self, (beNat_beOctets8 _ Config.uid.isLt).symm⟩

theorem witness_TapInstructions : wServe.pins.trst = true ∧ wServe.mode.mode ≠ .reset ∧ wServe.mode.mode ≠ .boot ∧
    (wMode .boot).mode.mode = .boot ∧ State.reset.mode.mode = .reset ∧ ({ pins := { trst := false } } : State).pins.trst = false := by
  decide

/-- An Announce of domain 9 as an EtherType 88-F7 frame: messageType 11, versionPTP 2. -/
def wAnnounce : Octets := zeros 12 ++ [0x88#8, 0xF7#8] ++ [0x0B#8, 0x02#8] ++ zeros 2 ++ [9#8] ++ zeros 59 ++ zeros 4

theorem witness_TimeBaseProgram : State.reset.net.ptpQueue = [] ∧
    (let f : RxFrame := { octets := wAnnounce, time := 0 }
     let s : State := { wServe with net := { ptpQueue := [(124, f)] }, clock := { tbCtrl := 0x000209FC#32 } }
     let o := f.octets.take (f.octets.length - 4)
     let msg := ptpPayload o
     s.net.ptpQueue = (124, f) :: [] ∧ s.clock.ptpEn = true ∧ 124 = s.clock.ptpMac ∧ transportOf o = s.clock.ptpTransport ∧
       beAt msg 1 1 % 16 = 2 ∧ beAt msg 4 1 = s.clock.ptpDomain ∧ beAt msg 0 1 % 16 = 0xB ∧ s.clock.ptpMaster = none ∧
       125 ≠ s.clock.ptpMac) ∧
    State.reset.clock.ptpEn = false := by decide +kernel

/-- The OTP settings' invariant where nothing is left and IMPORTDIS is 1, and a step from there. -/
theorem witness_OtpInvariantKept :
    (let s : State := { wServe with otp := ⟨5, 6, none, [], 3, true, 0, 0, 0, 0, 0, 0⟩, pending := [.refclkRelock] }
     OtpInv s.otp ∧ ∃ t, step s = .next t) :=
  ⟨⟨by decide, by decide, by decide, by decide, by decide, by decide, by decide, fun _ => rfl⟩, _, rfl⟩

/-! ## Values worked out outside the model: the published check values of the standards that the spec names -/

/-- The ASCII octets 1 to 9. -/
def wNine : Octets := (List.range 9).map (fun k => BitVec.ofNat 8 (0x31 + k))

/-- CRC-32C (R199) and the Ethernet FCS (R369) over "123456789", as their catalogue gives them. -/
theorem test_crc_check_values : crc32c wNine = 0xE3069283#32 ∧ fcs32 wNine = 0xCBF43926#32 := by decide +kernel

/-- SipHash-2-4 of its authors' first test vector: key octets 0 to 15, no input (R200). -/
theorem test_siphash : sipHash24 ((List.range 16).map (fun k => BitVec.ofNat 8 k)) [] = 0x726FDB47DD0E0E31#64 := by decide +kernel

/-- FIPS 197, appendix C.3. -/
theorem test_aes256 : aesEncrypt ((List.range 32).map (fun k => BitVec.ofNat 8 k)) ((List.range 16).map (fun k => BitVec.ofNat 8 (k * 17))) =
    beOctets 16 0x8EA2B7CA516745BFEAFC49904B496089 := by decide +kernel

/-- The Internet checksum over 0x4500 … of a header worked by hand: words 0x4500, 0x0001 sum to 0x4501. -/
theorem test_inet_checksum : inetChecksum [0x45#8, 0x00#8, 0x00#8, 0x01#8] = 0xBAFE := by decide

/-! ## Single steps -/

/-- ADD wraps: all ones and 1 give 0 in g1 (Table 6-7). -/
theorem test_add_wraps : ∃ t, exec (.add wCtx) (wNirm (wInv 0x10123000#32 0 [(2, BitVec.allOnes 64), (3, 1)]) [] {}) = .next t ∧
    (t.inv wCtx).map (fun v => (v.g 1, v.g 2, v.pc, v.charged)) = some (0, BitVec.allOnes 64, 1, 1) := ⟨_, rfl, by decide⟩

/-- SAR takes the low six bits of its count and keeps the sign; its source is its destination. -/
theorem test_sar : ∃ t, exec (.sar wCtx) (wNirm (wInv 0x10112007#32 0 [(1, 0x8000000000000000), (2, 68)]) [] {}) = .next t ∧
    (t.inv wCtx).map (fun v => v.g 1) = some 0xF800000000000000 := ⟨_, rfl, by decide⟩

/-- DIVU by 0 gives all ones, REMU by 0 its dividend (Table 6-7). -/
theorem test_divide_by_zero : (∃ t, exec (.divu wCtx) (wNirm (wInv 0x10123009#32 0 [(2, 7)]) [] {}) = .next t ∧
      (t.inv wCtx).map (fun v => v.g 1) = some (BitVec.allOnes 64)) ∧
    ∃ t, exec (.remu wCtx) (wNirm (wInv 0x1012300A#32 0 [(2, 7)]) [] {}) = .next t ∧
      (t.inv wCtx).map (fun v => v.g 1) = some 7 := ⟨⟨_, rfl, by decide⟩, _, rfl, by decide⟩

/-- A store is little-endian and a window load big-endian (R196). -/
theorem test_byte_orders : (∃ t, exec (.st16 wCtx) (wNirm (wInv 0x45120000#32 0 [(1, 0x1234), (2, 8)]) [] {}) = .next t ∧
      (t.inv wCtx).map (fun v => v.scratch) = some [(8, 0x34#8), (9, 0x12#8)]) ∧
    ∃ t, exec (.wl16 wCtx) (wNirm { wInv 0x49120000#32 0 [] with msg := [0x12#8, 0x34#8], msgLen := 2 } [] {}) = .next t ∧
      (t.inv wCtx).map (fun v => v.g 1) = some 0x1234 := ⟨⟨_, rfl, by decide⟩, _, rfl, by decide⟩

/-- The step takes the front command and leaves the rest; the queue's end is one CLKT cycle of 10 ns. -/
theorem test_queue : (∃ t, step { pending := [.refclkRelock, .powerOn] } = .next t ∧ t.pending = [.powerOn] ∧ t.clock.rootLock = true) ∧
    ∃ t, step State.reset = .next t ∧ t.clock.tb = 10 * 2 ^ 32 := ⟨⟨_, rfl, rfl, rfl⟩, _, rfl, by decide⟩

/-- No row of the table has bits: no word spells a command, and withFetchWord changes nothing. -/
theorem test_no_words : decodeTableWord 16 0x8256 = none ∧ State.reset.withFetchWord 16 0x8256 = State.reset := ⟨rfl, rfl⟩

/-- Table 11-3 and Table 11-4: one DIRENT gives 32 + 68 octets, padded to 128; 963 of them the greatest length, 65,536. The
ring of Table 11-1 holds 254 of those. -/
theorem test_log_full :
    (let r : EffRec := { commit := 1, floor := 0, nsid := 0, items := List.replicate 963 (.dirent 0 wEntry) }
     EffRec.octets { r with items := [.dirent 0 wEntry] } = 128 ∧ r.octets = 65536 ∧
       ({ log := List.replicate 253 r } : Die).logFull = false ∧ ({ log := List.replicate 254 r } : Die).logFull = true) := by
  decide +kernel

end Sys2Proof.Tests
end

section
/-! PROOFS. The integer instructions of Nirm (R193 to R195): what a word decodes to, one rule for an instruction that
writes g[rd], one for an instruction that transfers, and the statements on ALU functions, immediates, compare and
branch. -/

namespace Sys2Proof.Machine
open Sys2Proof Sys2Proof.Stmt

/-! ## Instruction words (Tables 6-3 and 6-6) -/

theorem guardOp_eq_some {ok : Bool} {o p : Op} : guardOp ok o = some p ↔ ok = true ∧ o = p := by
  cases ok <;> simp [guardOp]

theorem guardOp_eq_none {ok : Bool} {o : Op} : guardOp ok o = none ↔ ok = false := by
  cases ok <;> simp [guardOp]

/-- A word that decodes has the OPCODE of its instruction. -/
theorem wOp_of_opOf {w : W32} {o : Op} (h : opOf w = some o) : wOp w = o.opcode := by
  unfold opOf at h
  split at h <;> grind [guardOp_eq_some, Op.opcode]

section
variable {w : W32}

theorem opOf_alu (h : wOp w = 0x10) : opOf w = guardOp (decide (wFunc w ≤ 10)) (.alu (wFunc w)) := by
  simp [opOf, h]

theorem opOf_set (h : wOp w = 0x28) : opOf w = guardOp (decide (wFunc w ≤ 5)) (.set (wFunc w)) := by
  simp [opOf, h]

/-- EXT and DEP: rb 0, and the field inside the register (R194). -/
theorem opOf_ext_dep_eq_none (h : wOp w = 0x11 ∨ wOp w = 0x12) (hf : 64 < wFunc w % 64 + (wFunc w / 64 + 1) ∨ wRb w ≠ 0) :
    opOf w = none := by
  have hno : ¬ (wRb w = 0 ∧ wFunc w % 64 + wFunc w / 64 + 1 ≤ 64) := by omega
  rcases h with h | h <;> simpa [opOf, h, guardOp_eq_none] using hno

/-- The shifts by an immediate: imm16[15:6] is 0 (R194). -/
theorem opOf_shift_eq_none (h : wOp w = 0x1C ∨ wOp w = 0x1D ∨ wOp w = 0x1E) (hi : wImm16 w / 64 ≠ 0) : opOf w = none := by
  rcases h with h | h | h <;> simpa [opOf, h, guardOp_eq_none] using hi

theorem opOf_bz_bnz_eq_none (h : wOp w = 0x36 ∨ wOp w = 0x37) (ha : wRa w ≠ 0) : opOf w = none := by
  rcases h with h | h <;> simpa [opOf, h, guardOp_eq_none] using ha

theorem opOf_jmp_eq_none (h : wOp w = 0x38) (hd : wRd w ≠ 0) : opOf w = none := by
  simpa [opOf, h, guardOp_eq_none] using hd

theorem opOf_jr_eq_none (h : wOp w = 0x39) (hf : wRd w ≠ 0 ∨ wRb w ≠ 0 ∨ wFunc w ≠ 0) : opOf w = none := by
  have hno : ¬ (wRd w = 0 ∧ wRb w = 0 ∧ wFunc w = 0) := by omega
  simpa [opOf, h, guardOp_eq_none] using hno

/-- The condition of SET is its func field. -/
theorem wFunc_of_set {c : Nat} (h : opOf w = some (.set c)) : wFunc w = c := by
  rw [opOf_set (wOp_of_opOf h), guardOp_eq_some] at h
  obtain ⟨-, hc⟩ := h
  exact Op.set.inj hc

/-- A shift by an immediate shifts by at most 63. -/
theorem wImm16_of_shift {o : Op} (h : opOf w = some o) (ho : o.opcode = 0x1C ∨ o.opcode = 0x1D ∨ o.opcode = 0x1E) :
    wImm16 w < 64 := by
  rw [← wOp_of_opOf h] at ho
  refine Nat.lt_of_not_le fun hge => ?_
  rw [opOf_shift_eq_none ho (by omega)] at h
  cases h

end

/-! ## Fields of a word as bit vectors -/

theorem ofNat_field (w : W32) (lo n : Nat) : BitVec.ofNat n (field w lo n) = w.extractLsb' lo n := by
  apply BitVec.eq_of_toNat_eq
  simp [field, bitsOf]

theorem w64_field (w : W32) (lo n : Nat) : w64 (field w lo n) = (w.extractLsb' lo n).setWidth 64 := by
  apply BitVec.eq_of_toNat_eq
  simp [w64, field, bitsOf]

theorem sext_field (w : W32) (n : Nat) : sext n (field w 0 n) = (w.extractLsb' 0 n).signExtend 64 := by
  rw [sext, ofNat_field]

theorem target16_eq (v : Inv) (w : W32) : target16 v w = v.pc + simm16 w := by
  rw [target16, simm16, wImm16, ofNat_field]

theorem target20_eq (v : Inv) (w : W32) : target20 v w = v.pc + simm20 w := by
  rw [target20, simm20, wImm20, ofNat_field]

theorem wImm16_div_64 (w : W32) : wImm16 w / 64 = (w.extractLsb' 6 10).toNat := by
  simp [wImm16, field, bitsOf, Nat.shiftRight_eq_div_pow]
  omega

theorem wImm16_eq_low6 {w : W32} (h : wImm16 w < 64) : wImm16 w = (w.extractLsb' 0 6).toNat := by
  simp [wImm16, field, bitsOf] at h ⊢
  omega

/-! ## Arithmetic (Table 6-7, R194) -/

theorem shAmt_eq (b : W64) : shAmt b = (b.extractLsb' 0 6).toNat := by
  simp [shAmt]

theorem divuOf_eq (a b : W64) :
    divuOf a b = if b = 0 then BitVec.allOnes 64 else BitVec.ofNat 64 (a.toNat / b.toNat) := by
  have hdiv : a / b = BitVec.ofNat 64 (a.toNat / b.toNat) := by
    rw [← BitVec.toNat_udiv, BitVec.ofNat_toNat, BitVec.setWidth_eq]
  rw [divuOf, hdiv]

theorem remuOf_eq (a b : W64) : remuOf a b = if b = 0 then a else BitVec.ofNat 64 (a.toNat % b.toNat) := by
  have hmod : a % b = BitVec.ofNat 64 (a.toNat % b.toNat) := by
    rw [← BitVec.toNat_umod, BitVec.ofNat_toNat, BitVec.setWidth_eq]
  rw [remuOf, hmod]

theorem getLsbD_ones (n i : Nat) (hi : i < 64) : (ones n).getLsbD i = decide (i < n) := by
  rw [ones, w64, BitVec.getLsbD_ofNat, Nat.testBit_two_pow_sub_one]
  simp [hi]

/-- EXT takes `n` bits from bit `lsb` on. -/
theorem shiftRight_and_ones (a : W64) (lsb n : Nat) :
    (a >>> lsb) &&& ones n = (a.extractLsb' lsb n).setWidth 64 := by
  apply BitVec.eq_of_getLsbD_eq
  intro i hi
  rw [BitVec.getLsbD_and, getLsbD_ones n i hi, BitVec.getLsbD_ushiftRight, BitVec.getLsbD_setWidth,
    BitVec.getLsbD_extractLsb', Bool.and_comm]
  simp [hi]

/-- The register that DEP leaves, as `execDep` computes it: `n` bits of `a` put over `old` from bit `lsb` on. -/
def deposit (old a : W64) (lsb n : Nat) : W64 :=
  (old &&& ~~~(ones n <<< lsb)) ||| ((a <<< lsb) &&& (ones n <<< lsb))

theorem getLsbD_deposit (old a : W64) (lsb n i : Nat) (hi : i < 64) :
    (deposit old a lsb n).getLsbD i =
      if lsb ≤ i ∧ i < lsb + n then a.getLsbD (i - lsb) else old.getLsbD i := by
  have hmask : (ones n <<< lsb).getLsbD i = decide (lsb ≤ i ∧ i < lsb + n) := by
    rw [BitVec.getLsbD_shiftLeft, getLsbD_ones n (i - lsb) (by omega)]
    by_cases hl : lsb ≤ i
    · simp [hi, hl, Nat.sub_lt_iff_lt_add hl, Nat.add_comm]
    · simp [hl, Nat.lt_of_not_le hl]
  rw [deposit, BitVec.getLsbD_or, BitVec.getLsbD_and, BitVec.getLsbD_and, BitVec.getLsbD_not, hmask,
    BitVec.getLsbD_shiftLeft]
  by_cases hin : lsb ≤ i ∧ i < lsb + n
  · simp [hin, hi]
  · simp [hin, hi]

/-! ## The conditions (R195) -/

section
variable (a b : W64)

theorem condOf_eq : condOf 0 a b = true ↔ a = b := by simp [condOf]
theorem condOf_ne : condOf 1 a b = true ↔ a ≠ b := by simp [condOf]
theorem condOf_ltu : condOf 2 a b = true ↔ a.toNat < b.toNat := by simp [condOf, BitVec.ult]
theorem condOf_geu : condOf 3 a b = true ↔ b.toNat ≤ a.toNat := by simp [condOf, BitVec.ult]
theorem condOf_lt : condOf 4 a b = true ↔ a.toInt < b.toInt := by simp [condOf, BitVec.slt]
theorem condOf_ge : condOf 5 a b = true ↔ b.toInt ≤ a.toInt := by simp [condOf, BitVec.slt]

end

/-! ## One rule for each way an instruction goes on

Each takes the command as `runNirm` of what it asks for and does; `asks` holds of the instruction that the context
stands on. -/

section
variable {s t : State} {x : CtxId} {v u : Inv} {w : W32} {i : Instr} {o : Op} {asks : Op → Inv → Bool}
  {act : Inv → W32 → NRes}

@[simp] theorem isOp_self (o : Op) (v : Inv) : isOp o o v = true := decide_eq_true rfl

theorem advance_eq_onward (hpc : u.pc = v.pc) (hch : u.charged = v.charged) (pc : Nat) (wt : Wait) :
    u.advance pc o.charge wt = onward v u o pc wt := by
  rw [Inv.advance, onward, hpc, hch]

/-- An instruction that goes on to the next one, whatever it changes. -/
theorem steps_of_next (he : exec i s = runNirm s x asks act) (ha : asks o v = true)
    (hr : opOf w = some o → act v w = .next t u) (hpc : u.pc = v.pc) (hch : u.charged = v.charged) :
    Steps s x v w i o t u := by
  rintro ⟨hctx, hinv, hword, hop, hidle, hturn, hbudget⟩ hlen
  rw [he, runNirm_next hctx hinv hword hop hidle hturn hbudget ha (hr hop) hlen, advance_eq_onward hpc hch]

/-- An instruction whose act writes r to g[rd]. -/
theorem writes_of_setRd {r : W64} (he : exec i s = runNirm s x asks act) (ha : asks o v = true)
    (hr : opOf w = some o → act v w = setRd s v w r) : Writes s x v w i o r :=
  steps_of_next he ha hr rfl rfl

/-- An instruction that always transfers. -/
theorem jumps_of_jump {target : Int} (he : exec i s = runNirm s x (isOp o) act) (hr : act v w = .jump u target)
    (hpc : u.pc = v.pc) (hch : u.charged = v.charged) : Jumps s x v w i o u True target := by
  rintro ⟨hctx, hinv, hword, hop, hidle, hturn, hbudget⟩
  refine ⟨fun _ h0 h1 => ?_, fun hno => absurd trivial hno⟩
  rw [he, runNirm_jump hctx hinv hword hop hidle hturn hbudget (isOp_self o v) hr h0 h1, advance_eq_onward hpc hch]

/-- A conditional branch transfers by imm16 where its condition holds and else goes on. -/
theorem jumps_of_branchIf {c : Bool} {p : Prop} (he : exec i s = runNirm s x (isOp o) act)
    (hr : act v w = branchIf s v w c) (hc : c = true ↔ p) : Jumps s x v w i o v p (v.pc + simm16 w) := by
  rintro ⟨hctx, hinv, hword, hop, hidle, hturn, hbudget⟩
  have ha := isOp_self o v
  constructor
  · intro hp h0 h1
    have hj : act v w = .jump v (v.pc + simm16 w) := by rw [hr, hc.mpr hp, ← target16_eq]; rfl
    rw [he, runNirm_jump hctx hinv hword hop hidle hturn hbudget ha hj h0 h1, advance_eq_onward rfl rfl]
  · intro hp hlen
    have hn : act v w = .next s v := by rw [hr, Bool.eq_false_iff.mpr (mt hc.mp hp)]; rfl
    rw [he, runNirm_next hctx hinv hword hop hidle hturn hbudget ha hn hlen, advance_eq_onward rfl rfl]

/-! ## The rows of each group -/

theorem aluRow_writes {f : Nat} {r : W64} (op : W64 → W64 → W64) (he : exec i s = aluRow x f op s)
    (hr : op (v.g (wRa w)) (v.g (wRb w)) = r) : Writes s x v w i (.alu f) r :=
  writes_of_setRd he (isOp_self _ _) fun _ => by rw [hr]

theorem immRow_writes {r : W64} (op : W64 → Nat → W64) (he : exec i s = immRow x o op s)
    (hr : opOf w = some o → op (v.g (wRa w)) (wImm16 w) = r) : Writes s x v w i o r :=
  writes_of_setRd he (isOp_self _ _) fun ho => by rw [hr ho]

/-- The three shifts by an immediate take the low six bits of imm16. -/
theorem immRow_shift_writes (op : W64 → Nat → W64) (he : exec i s = immRow x o op s)
    (ho : o.opcode = 0x1C ∨ o.opcode = 0x1D ∨ o.opcode = 0x1E) :
    Writes s x v w i o (op (v.g (wRa w)) (w.extractLsb' 0 6).toNat) :=
  immRow_writes op he fun h => by rw [wImm16_eq_low6 (wImm16_of_shift h ho)]

theorem set_writes {c : Nat} {r : W64} (hr : (if condOf c (v.g (wRa w)) (v.g (wRb w)) then 1 else 0) = r) :
    Writes s x v w (.set x) (.set c) r :=
  writes_of_setRd (act := fun v w => setRd s v w (if condOf (wFunc w) (v.g (wRa w)) (v.g (wRb w)) then 1 else 0))
    (asks := isSet) rfl rfl fun ho => by rw [wFunc_of_set ho, hr]

end

/-! ## The statements -/

/-- Settles O24. Each function is one `aluRow`; func picks the function of the word (Table 6-7). -/
theorem nirmAluFunctions : Obligations.NirmAluFunctions := by
  rintro s x v w a b rfl rfl
  refine ⟨aluRow_writes (fun a b => a + b) rfl rfl, aluRow_writes (fun a b => a - b) rfl rfl,
    aluRow_writes (fun a b => a &&& b) rfl rfl, aluRow_writes (fun a b => a ||| b) rfl rfl,
    aluRow_writes (fun a b => a ^^^ b) rfl rfl, aluRow_writes (fun a b => a <<< shAmt b) rfl ?shl,
    aluRow_writes (fun a b => a >>> shAmt b) rfl ?shr, aluRow_writes (fun a b => a.sshiftRight (shAmt b)) rfl ?sar,
    aluRow_writes (fun a b => a * b) rfl rfl, aluRow_writes divuOf rfl (divuOf_eq _ _),
    aluRow_writes remuOf rfl (remuOf_eq _ _), ?func⟩
  case shl | shr | sar => rw [shAmt_eq]
  case func =>
    intro hop
    rw [opOf_alu hop]
    refine ⟨fun f hf => ?_, fun hf => guardOp_eq_none.mpr (decide_eq_false (Nat.not_le_of_lt hf))⟩
    rw [guardOp_eq_some, Op.alu.injEq]
    exact ⟨And.right, fun h => ⟨decide_eq_true (h ▸ hf), h⟩⟩

/-- Settles O25. EXT and DEP bit by bit, the immediates as fields of the word, the refused encodings by the decoder. -/
theorem nirmImmediates : Obligations.NirmImmediates := by
  rintro s x v w a lsb width rfl rfl rfl
  refine ⟨writes_of_setRd rfl (isOp_self _ _) fun _ => ?ext,
    ⟨deposit (v.g (wRd w)) (v.g (wRa w)) _ _, writes_of_setRd rfl (isOp_self _ _) fun _ => rfl,
      fun i hi => getLsbD_deposit _ _ _ _ i hi⟩,
    immRow_writes (fun a i => a + sext 16 i) rfl fun _ => ?addi,
    immRow_writes (fun a i => a &&& w64 i) rfl fun _ => ?andi,
    immRow_writes (fun a i => a ||| w64 i) rfl fun _ => ?ori,
    immRow_writes (fun a i => a ^^^ w64 i) rfl fun _ => ?xori,
    immRow_shift_writes (fun a i => a <<< i) rfl (by decide),
    immRow_shift_writes (fun a i => a >>> i) rfl (by decide),
    immRow_shift_writes (fun a i => a.sshiftRight i) rfl (by decide), writes_of_setRd rfl (isOp_self _ _) fun _ => ?li,
    writes_of_setRd rfl (isOp_self _ _) fun _ => ?lsh, opOf_ext_dep_eq_none, fun hop hi => opOf_shift_eq_none hop ?high⟩
  case ext => rw [shiftRight_and_ones]
  case addi => rw [wImm16, sext_field]
  case andi | ori | xori => rw [wImm16, w64_field]
  case li => rw [wImm20, sext_field]
  case lsh => rw [wImm20, w64_field]
  case high =>
    rw [wImm16_div_64]
    exact fun h => hi (BitVec.eq_of_toNat_eq h)

/-- Settles O26. SET and the branches by the six conditions of R195; the transfers by their targets. -/
theorem nirmCompareAndBranch : Obligations.NirmCompareAndBranch := by
  rintro s x v w a b d rfl rfl rfl
  refine ⟨set_writes ?eq, set_writes ?ne, set_writes ?ltu, set_writes ?geu, set_writes ?lt, set_writes ?ge,
    jumps_of_branchIf rfl rfl (condOf_eq _ _), jumps_of_branchIf rfl rfl (condOf_ne _ _),
    jumps_of_branchIf rfl rfl (condOf_ltu _ _), jumps_of_branchIf rfl rfl (condOf_geu _ _),
    jumps_of_branchIf rfl rfl (condOf_lt _ _), jumps_of_branchIf rfl rfl (condOf_ge _ _),
    jumps_of_branchIf rfl rfl decide_eq_true_iff, jumps_of_branchIf rfl rfl decide_eq_true_iff,
    target20_eq v w ▸ jumps_of_jump rfl rfl rfl rfl, jumps_of_jump rfl rfl rfl rfl,
    target20_eq v w ▸ jumps_of_jump rfl rfl rfl rfl, opOf_bz_bnz_eq_none, opOf_jmp_eq_none, opOf_jr_eq_none⟩
  case eq => simp only [condOf_eq]
  case ne => simp only [condOf_ne, ne_eq, ite_not]
  case ltu => simp only [condOf_ltu]
  case geu => simp only [condOf_geu]
  case lt => simp only [condOf_lt]
  case ge => simp only [condOf_ge]

end Sys2Proof.Machine
end
